-- ==== Sys2Proof/Word.lean ====
section
/-! DEFINITION. The word types of the envelope core: the 32-bit command word and registers
(30_encoding R80, 10_state), the 8-bit unit number (20_memory R60), the 64-bit `PARAMS` port (30 R84). -/

namespace Sys2Proof

/-- A 32-bit register, port or command word. -/
abbrev Word := BitVec 32

/-- A unit number, the width of the command fields `DST` and `SRC` (30_encoding R81). -/
abbrev UnitNo := BitVec 8

/-- The 64-bit `PARAMS` operand: eight unsigned bytes (30_encoding R85). -/
abbrev ParamWord := BitVec 64

end Sys2Proof
end

