-- ==== Sys2Proof/Config.lean ====
section
/-! DEFINITION. The implementation parameters of 00_scope section 3 as plain data, and the values the spec
leaves open as opaque constants. The default tables stand in Machine/Defaults.lean. -/

namespace Sys2Proof

/-- `MODE[d]` (00_scope R9): fixed at construction. -/
inductive Mode where
  | standard
  | accurate
  deriving DecidableEq, Repr, Inhabited

/-- Which `RATE_CODE(r, rs, xr)` the block has (00_scope R12, 41_advance R144). -/
inductive RateCodeRule where
  /-- The default instantiation of 41_advance R144. -/
  | reference
  /-- Any other function: the opaque `Config.otherRateCode k`. -/
  | other (k : Nat)
  deriving DecidableEq, Repr

/-- Which `RISE_STEP(level, inc, n)` the block has (00_scope R13, 40_envelope_ops R112). -/
inductive RiseStepRule where
  /-- `RISE_STEP_default`. -/
  | reference
  /-- `RISE_STEP_plain`, without any correction. -/
  | plain
  /-- Any other function: the opaque `Config.otherRiseStep k`. -/
  | other (k : Nat)
  deriving DecidableEq, Repr

/-- Which `STATIC_CODE(r, rs, xr)` the block has (00_scope R15, 44_accurate_timing R192). -/
inductive StaticCodeRule where
  /-- The default instantiation of 44_accurate_timing R192. -/
  | reference
  /-- Any other function: the opaque `Config.otherStaticCode k`. -/
  | other (k : Nat)
  deriving DecidableEq, Repr

/-- Which rounding `CAL_OF(rate)` the block has (43_calibration R182). -/
inductive CalRule where
  /-- The exact floor of 43_calibration R181. -/
  | floor
  /-- Any other rounding: the opaque `Config.otherCalOf k`, but for the two rates that R182 fixes. -/
  | other (k : Nat)
  deriving DecidableEq, Repr

/-- The parameters a model takes as arguments (00_scope R8 to R15, R182). No command and no reset event
changes them (00_scope R9, 70_reset R230). -/
structure Config where
  /-- `NUM_INSTANCES`, 1..256 (R8). -/
  numInstances : Nat
  /-- `MODE[d]` (R9); an entry at or above `NUM_INSTANCES` belongs to no unit. -/
  modes : Vector Mode 256
  /-- The ROM `LUT` = `LEVEL_LUT[0..19]` (R10, 20_memory R61). -/
  levelLut : Vector Nat 20
  /-- `BLEND_OFFSET` (R11). -/
  blendOffset : Int
  /-- `RATE_CODE` (R12). -/
  rateCode : RateCodeRule
  /-- `RISE_STEP` (R13). -/
  riseStep : RiseStepRule
  /-- `PH3_HELD_STEPS` (R13, 40_envelope_ops R109). -/
  ph3HeldSteps : Bool
  /-- The ROM `HOLDROM` = `HOLD_TABLE`, whose length is `HOLD_LEN` (R14, 20_memory R62). -/
  holdTable : List Nat
  /-- `STATIC_CODE` (R15). -/
  staticCode : StaticCodeRule
  /-- `ZA_DIV_ALL` (R15, 44_accurate_timing R198). -/
  zaDivAll : Bool
  /-- `CAL_OF` (43_calibration R182). -/
  calOf : CalRule
  deriving DecidableEq, Repr

/-- The constraints that 00_scope R8, R10 and R14 put on the parameters. -/
def Config.legal (c : Config) : Bool :=
  decide (1 ≤ c.numInstances) && decide (c.numInstances ≤ 256)
    && decide (c.levelLut[0] = 0) && decide (c.levelLut[19] = 46)
    && decide (c.levelLut.toList.Pairwise (· < ·))
    && decide (1 ≤ c.holdTable.length) && decide (c.holdTable.length ≤ 100)

/-- A `RATE_CODE` the spec does not state (assumption log 9). -/
opaque Config.otherRateCode (k : Nat) (r rs xr : Int) : Int

/-- A `STATIC_CODE` the spec does not state (assumption log 9). -/
opaque Config.otherStaticCode (k : Nat) (r rs xr : Int) : Int

/-- A `RISE_STEP` the spec does not state; `none` where a product or sum it forms leaves the signed 32-bit
range (40_envelope_ops R112; assumption log 9). -/
opaque Config.otherRiseStep (k : Nat) (level inc n : Int) : Option Int

/-- A rounding of the calibration scalar the spec does not state (43_calibration R182; assumption log 9). -/
opaque Config.otherCalOf (k : Nat) (rate : Nat) : Nat

/-- FREE VALUE: the 32 bits in place `slot` of the state that fault number `event` leaves
(60_exceptions R206 "any value"; assumption log 3). -/
opaque Config.freeBits (event slot : Nat) : Word

/-- FREE VALUE: which of several commands that overlap without being forbidden takes effect first
(20_memory R71 "any order of them"; assumption log 13). -/
opaque Config.freeOrder (event : Nat) : Nat

end Sys2Proof
end

