-- ==== Sys2Proof/Syntax.lean ====
section
/-! DEFINITION. The commands of the block, one constructor per row of spec/opcode_table.json
(30_encoding R82), and the reasons a command word is refused or a command faults (60_exceptions R201). -/

namespace Sys2Proof

/-- One constructor per row of the opcode table. The operands that travel on ports (`PARAMS`, `OL`, `RS`,
`N`, `XR`, `RATE`, `LIN`) are not part of the word (30_encoding R84); the state holds them latched. -/
inductive Instr where
  /-- INIT (40_envelope_ops R100). -/
  | init (dst : UnitNo)
  /-- KEYDOWN (40_envelope_ops R104); `g` is bit 4 of the word: 1 = note held. -/
  | keydown (dst : UnitNo) (g : Bool)
  /-- GETSAMPLE (40_envelope_ops R108). -/
  | getsample (dst : UnitNo)
  /-- UPDATE (40_envelope_ops R120). -/
  | update (dst : UnitNo)
  /-- GETPOSITION (40_envelope_ops R124). -/
  | getposition (dst : UnitNo)
  /-- TRANSFER (40_envelope_ops R127). -/
  | transfer (dst src : UnitNo)
  /-- SET_SAMPLE_RATE (43_calibration R181). -/
  | setSampleRate
  /-- LEVEL_SCALE (42_level_scaling R171). -/
  | levelScale
  /-- ADVANCE (41_advance R140): internal, with no encoding (30_encoding R90). Its operands are the unit,
  the new phase 0..4 and the extra rate; the parameter set is the one on the `PARAMS` port. -/
  | advance (dst : UnitNo) (k : Fin 5) (xr : Word)
  deriving DecidableEq, Repr

/-- The fault reasons F_* (60_exceptions R201). -/
inductive FaultReason where
  /-- F_UNINIT: a command other than INIT reads a unit whose `valid` is 0 (R202). -/
  | uninit
  /-- F_PARAM_RANGE: ADVANCE reads a rate or level above 99 (R203). -/
  | paramRange
  /-- F_RATE_CODE: a slope rate code below 0, or a static code outside 0..99 (R203). -/
  | rateCode
  /-- F_OVERFLOW: a `chk32` fails (R204). -/
  | overflow
  /-- F_OPERAND_RANGE: an operand outside the domain of its command (R204). -/
  | operandRange
  /-- F_MODE_MISMATCH: TRANSFER between units of different modes (R204). -/
  | modeMismatch
  /-- F_RACE: two commands of a forbidden pair overlap in time (R205). -/
  | race
  deriving DecidableEq, Repr

/-- The refusal reasons X_* (60_exceptions R201), given by the decoder alone. -/
inductive RefusalReason where
  /-- X_RESERVED_OP: opcode 0x0 or 0x9..0xF (30_encoding R89). -/
  | reservedOp
  /-- X_RESERVED_FIELD: a reserved or must-be-zero bit of a known opcode is 1 (30_encoding R89). -/
  | reservedField
  /-- X_BAD_UNIT: a unit number at or above NUM_INSTANCES (20_memory R67). -/
  | badUnit
  deriving DecidableEq, Repr

end Sys2Proof
end

