-- ==== Sys2Proof/WellFormed.lean ====
section
/-! DEFINITION. Well-formed commands: every unit number a command names exists (20_memory R67). Every
other restriction of the table is in the types of `Instr`. -/

namespace Sys2Proof

/-- The units a command names: `DST`, and `SRC` for TRANSFER (30_encoding R83). -/
def Instr.units : Instr → List UnitNo
  | .init d => [d]
  | .keydown d _ => [d]
  | .getsample d => [d]
  | .update d => [d]
  | .getposition d => [d]
  | .transfer d e => [d, e]
  | .setSampleRate => []
  | .levelScale => []
  | .advance d _ _ => [d]

/-- Every unit the command names is below `NUM_INSTANCES` = `n` (20_memory R67, 30_encoding R87). -/
def Instr.wellFormed (n : Nat) (i : Instr) : Bool :=
  i.units.all fun d => decide (d.toNat < n)

end Sys2Proof
end

