-- ==== Sys2Proof/Decode.lean ====
section
/-! DEFINITION. The decoder of the command word (30_encoding R81, R82, R87) and the encoder, both written
from the encoding tables of 30_encoding. -/

namespace Sys2Proof

/-- `OP` = w[3:0] (30_encoding R81). -/
def opField (w : Word) : BitVec 4 := w.extractLsb' 0 4

/-- `G` = w[4] (30_encoding R81). -/
def gField (w : Word) : Bool := w.getLsbD 4

/-- `DST` = w[15:8] (30_encoding R81). -/
def dstField (w : Word) : UnitNo := w.extractLsb' 8 8

/-- `SRC` = w[23:16] (30_encoding R81). -/
def srcField (w : Word) : UnitNo := w.extractLsb' 16 8

/-- The `mask` column of 30_encoding R82 for an opcode that has a row. -/
def rowMask (op : BitVec 4) : Option Word :=
  match op.toNat with
  | 1 => some 0xFFFF00FF#32
  | 2 => some 0xFFFF00EF#32
  | 3 => some 0xFFFF00FF#32
  | 4 => some 0xFFFF00FF#32
  | 5 => some 0xFFFF00FF#32
  | 6 => some 0xFF0000FF#32
  | 7 => some 0xFFFFFFFF#32
  | 8 => some 0xFFFFFFFF#32
  | _ => none

/-- The `match` column of 30_encoding R82: the opcode itself, every other fixed bit 0. -/
def rowMatch (op : BitVec 4) : Word := op.setWidth 32

/-- The command of the row with opcode `op`, its fields read from `w` (30_encoding R82, R87). -/
def rowInstr (op : BitVec 4) (w : Word) : Option Instr :=
  match op.toNat with
  | 1 => some (.init (dstField w))
  | 2 => some (.keydown (dstField w) (gField w))
  | 3 => some (.getsample (dstField w))
  | 4 => some (.update (dstField w))
  | 5 => some (.getposition (dstField w))
  | 6 => some (.transfer (dstField w) (srcField w))
  | 7 => some .setSampleRate
  | 8 => some .levelScale
  | _ => none

/-- The decode procedure of 30_encoding R87 for a block of `n` units: the opcode, then the mask, then the
unit numbers; the first failing test gives the reason. -/
def decode (n : Nat) (w : Word) : Except RefusalReason Instr :=
  match rowMask (opField w), rowInstr (opField w) w with
  | some mask, some i =>
    if w &&& mask = rowMatch (opField w) then
      if i.wellFormed n then .ok i else .error .badUnit
    else .error .reservedField
  | _, _ => .error .reservedOp

/-- The command word of a command (30_encoding R81, R82, R91); ADVANCE has none (R90). -/
def encode : Instr → Option Word
  | .init d => some (0x00000001#32 ||| d.setWidth 32 <<< 8)
  | .keydown d g =>
    some (0x00000002#32 ||| (BitVec.ofBool g).setWidth 32 <<< 4 ||| d.setWidth 32 <<< 8)
  | .getsample d => some (0x00000003#32 ||| d.setWidth 32 <<< 8)
  | .update d => some (0x00000004#32 ||| d.setWidth 32 <<< 8)
  | .getposition d => some (0x00000005#32 ||| d.setWidth 32 <<< 8)
  | .transfer d e => some (0x00000006#32 ||| d.setWidth 32 <<< 8 ||| e.setWidth 32 <<< 16)
  | .setSampleRate => some 0x00000007#32
  | .levelScale => some 0x00000008#32
  | .advance _ _ _ => none

/-- The command word that an opcode-table row of `nbits` bits with the value `w` stands for, if it is a
command word at all: `CMD32` is the only length (30_encoding R80). -/
def tableWord (nbits w : Nat) : Option Word :=
  if w % 2 ^ nbits < 2 ^ 32 then some (BitVec.ofNat 32 (w % 2 ^ nbits)) else none

/-- What the decoder of a block with the largest unit bank, 256 units, reads from a table row's bits. -/
def decodeTableWord (nbits w : Nat) : Option Instr :=
  match tableWord nbits w with
  | some cw => (decode 256 cw).toOption
  | none => none

end Sys2Proof
end

