-- ==== Sys2Proof/Machine/Defaults.lean ====
section
/-! DEFINITION. The parameter values the block has at `State.reset`: the defaults the spec states for the
parameters it leaves open. Those it marks "from general knowledge, not in source" are PRESUMED (assumption
log 8), NUM_INSTANCES and MODE are DESIGN CHOICE (assumption log 7). -/

namespace Sys2Proof.Machine

/-- PRESUMED (log 8): the default of `LEVEL_LUT` (42_level_scaling R172). -/
def defaultLevelLut : Vector Nat 20 :=
  #v[0, 5, 9, 13, 17, 20, 23, 25, 27, 29, 31, 33, 35, 37, 39, 41, 42, 43, 45, 46]

/-- PRESUMED (log 8): the default of `HOLD_TABLE` (44_accurate_timing R191), ten entries a line. -/
def defaultHoldTable : List Nat :=
  [1764000, 1764000, 1411200, 1411200, 1190700, 1014300, 992250, 882000, 705600, 705600]
  ++ [584325, 507150, 502740, 441000, 418950, 352800, 308700, 286650, 253575, 220500]
  ++ [220500, 176400, 145530, 145530, 125685, 110250, 110250, 88200, 88200, 74970]
  ++ [61740, 61740, 55125, 48510, 44100, 37485, 31311, 30870, 27562, 27562]
  ++ [22050, 18522, 17640, 15435, 14112, 13230, 11025, 9261, 9261, 7717]
  ++ [6615, 6615, 5512, 5512, 4410, 3969, 3969, 3439, 2866, 2690]
  ++ [2249, 1984, 1896, 1808, 1411, 1367, 1234, 1146, 926, 837]
  ++ [837, 705, 573, 573, 529, 441, 441]

/-- PRESUMED (log 8): the default of `BLEND_OFFSET` (41_advance R143). -/
def defaultBlendOffset : Int := 4256

/-- The configuration at `State.reset`. DESIGN CHOICE (log 7): 256 units, all STANDARD. PRESUMED (log 8):
the general-knowledge defaults. `PH3_HELD_STEPS` = false (40_envelope_ops R109), `ZA_DIV_ALL` = true
(44_accurate_timing R198) and the exact floor (43_calibration R182) are the spec's own defaults. -/
def defaultConfig : Config where
  numInstances := 256
  modes := Vector.replicate 256 .standard
  levelLut := defaultLevelLut
  blendOffset := defaultBlendOffset
  rateCode := .reference
  riseStep := .reference
  ph3HeldSteps := false
  holdTable := defaultHoldTable
  staticCode := .reference
  zaDivAll := true
  calOf := .floor

end Sys2Proof.Machine
end

