-- ==== Sys2Proof/Machine/State.lean ====
section
/-! DEFINITION. The state of the block (10_state), the outcomes' reasons, and the state after reset
(10_state R50, 70_reset_and_hazards R230). -/

namespace Sys2Proof.Machine

/-- One envelope unit `E[d]`: exactly the fields of 10_state R31 to R40. -/
structure EnvUnit where
  /-- R31. -/
  valid : Bool
  /-- R32: signed, Q16. -/
  level : Word
  /-- R33: signed, Q16. -/
  targetLevel : Word
  /-- R34. -/
  rising : Bool
  /-- R35: 0..3 active phases, 4 IDLE. -/
  phaseIndex : BitVec 3
  /-- R36. -/
  gateDown : Bool
  /-- R37: signed. -/
  increment : Word
  /-- R38: signed. -/
  outputLevel : Word
  /-- R39: signed. -/
  rateScaling : Word
  /-- R40: signed. -/
  holdCount : Word
  deriving DecidableEq, Repr

/-- The operand ports as latched with a command (00_scope R24, 30_encoding R84). -/
structure Ports where
  params : ParamWord
  ol : Word
  rs : Word
  n : Word
  xr : Word
  rate : Word
  lin : Word
  deriving DecidableEq, Repr

/-- What the host presents for one command: the word and the operand ports (30_encoding R80, R84). -/
structure Command where
  word : Word
  ports : Ports
  deriving DecidableEq, Repr

/-- One thing the host does to the block. -/
inductive HostEvent where
  /-- Present one command (00_scope R6). -/
  | command (c : Command)
  /-- Several host contexts present commands that overlap in time (20_memory R71). -/
  | overlap (cs : List Command)
  /-- Assert reset (70_reset_and_hazards R230). -/
  | reset
  deriving DecidableEq, Repr

/-- The register `FAULT` (10_state R44): NONE, or the first fault or refusal since reset. -/
inductive Status where
  | none
  | fault (r : FaultReason)
  | refused (r : RefusalReason)
  deriving DecidableEq, Repr

/-- The state of the block. -/
structure State where
  /-- The configuration: `MODE`, the two ROMs and the other parameters (10_state R43, 20_memory R60). -/
  cfg : Config
  /-- The unit bank `E`; an entry at or above `cfg.numInstances` is no unit (20_memory R60, R67). -/
  units : Vector EnvUnit 256
  /-- `CAL` (10_state R42): unsigned, 24 fractional bits. -/
  cal : Word
  /-- `FAULT` (10_state R44). -/
  fault : Status
  /-- `RESULT` (10_state R45); it counts as a value only where `resultWritten` holds. -/
  result : Word
  /-- Whether `RESULT` holds a value: false is the "no value" of 10_state R45 and R50. -/
  resultWritten : Bool
  /-- The operand ports latched with the last command that was decoded (00_scope R24). -/
  ports : Ports
  /-- The MODEL's own field: what the host does next, first event first (10_state R46; assumption log 1). -/
  inbox : List HostEvent
  /-- The MODEL's own field: numbers the open values, so that each is fresh (assumption log 15). -/
  freeCount : Nat
  deriving DecidableEq, Repr

/-- Host-side fault reasons: there is none, for the machine never stops outside its own state. Every fault of
60_exceptions is taken as a next state, with `FAULT` written and the block stopped (60 R206, R208, R211;
assumption log 2). -/
inductive Fault where
  deriving DecidableEq, Repr

/-- Why an observation of the block gives no value. It is no outcome of a step: the machine goes on. -/
inductive ObservationFault where
  /-- The host reads RESULT before GETSAMPLE, GETPOSITION or LEVEL_SCALE has written it: "a fault of the
  observation, not a value" (10_state R45, 92 D31, 93 U5). Safe: no value where the spec gives none. -/
  | resultUnwritten
  deriving DecidableEq, Repr

/-- Host-side refusal reasons. A refused command WORD is not one of them: it is a next state with `FAULT`
written (60_exceptions R206, R207; assumption log 2). -/
inductive Refusal where
  /-- Raised by an arm of `exec` whose command has no meaning yet; no arm does. Safe. -/
  | notModelled (mnemonic : String)
  deriving DecidableEq, Repr

/-- DESIGN CHOICE (log 4): the unit fields after reset. Only `valid` = 0 is the spec's (10_state R50). -/
def EnvUnit.atReset : EnvUnit where
  valid := false
  level := 0
  targetLevel := 0
  rising := false
  phaseIndex := 0
  gateDown := false
  increment := 0
  outputLevel := 0
  rateScaling := 0
  holdCount := 0

/-- DESIGN CHOICE (log 6): the operand ports before any command, and the ports of `withFetchWord`. -/
def Ports.atReset : Ports where
  params := 0
  ol := 0
  rs := 0
  n := 0
  xr := 0
  rate := 0
  lin := 0

/-- The machine right after reset (10_state R50, 70_reset_and_hazards R230): every `valid` = 0,
`CAL` = `CAL_RESET` = 1 << 24 (R231), `FAULT` = NONE, `RESULT` without a value, no command presented. -/
def State.reset : State where
  cfg := defaultConfig
  units := Vector.replicate 256 EnvUnit.atReset
  cal := 0x01000000#32
  fault := .none
  result := 0
  resultWritten := false
  ports := Ports.atReset
  inbox := []
  freeCount := 0

end Sys2Proof.Machine
end

