-- ==== Sys2Proof/Machine/Flags.lean ====
section
/-! DEFINITION. The two flags of a unit, `rising` and `gateDown` (10_state R47), and the tests on them and
on the phase that the commands make. -/

namespace Sys2Proof.Machine

/-- The new `rising` of an ADVANCE to an active phase: `t > level`, signed (41_advance R142). -/
def risingFlag (t : Int) (level : Word) : Bool := decide (level.toInt < t)

/-- The phase that KEYDOWN enters for a gate value: 1 selects attack, 0 selects release
(40_envelope_ops R107). -/
def gatePhase (g : Bool) : Fin 5 := if g then 0 else 3

/-- Whether GETSAMPLE may move the level of `u` (40_envelope_ops R109). -/
def inSteppingWindow (cfg : Config) (u : EnvUnit) : Bool :=
  if cfg.ph3HeldSteps then decide (u.phaseIndex.toNat < 4)
  else decide (u.phaseIndex.toNat < 3) || (decide (u.phaseIndex.toNat = 3) && !u.gateDown)

/-- `phaseIndex + 1` as GETSAMPLE passes it to ADVANCE, with `phaseIndex` in 0..3 (41_advance R140). It
stays at IDLE for the values 4..7, which no run has there (10_state R48 I1, I2; assumption log 12). -/
def nextPhase (u : EnvUnit) : Fin 5 :=
  if h : u.phaseIndex.toNat < 4 then ⟨u.phaseIndex.toNat + 1, by omega⟩ else 4

end Sys2Proof.Machine
end

