-- ==== Sys2Proof/Machine/Operands.lean ====
section
/-! DEFINITION. Reading the operand ports (30_encoding R84 to R86), and the exact integer arithmetic of
00_scope R19 to R21. -/

namespace Sys2Proof.Machine

/-- `chk32(v)` (00_scope R19). -/
def chk32 (v : Int) : Except FaultReason Int :=
  if v < -2147483648 ∨ 2147483647 < v then .error .overflow else .ok v

/-- The 32-bit two's complement register that holds the value `v` (00_scope R19). -/
def ofValue (v : Int) : Word := BitVec.ofInt 32 v

/-- `P.rates[k]` = PARAMS[8k+7 : 8k], for `k` < 4 (30_encoding R85). -/
def rateParam (p : ParamWord) (k : Nat) : Nat := (p.extractLsb' (8 * k) 8).toNat

/-- `P.levels[k]` = PARAMS[8k+39 : 8k+32], for `k` < 4 (30_encoding R85). -/
def levelParam (p : ParamWord) (k : Nat) : Nat := (p.extractLsb' (8 * k + 32) 8).toNat

/-- The `PARAMS` port value that holds the rates `r` and the levels `l` (30_encoding R85): byte `k` is
`r[k]`, byte `4 + k` is `l[k]`. -/
def packParams (r l : Vector (BitVec 8) 4) : ParamWord :=
  l[3] ++ l[2] ++ l[1] ++ l[0] ++ r[3] ++ r[2] ++ r[1] ++ r[0]

/-- `sext_32(op.XR)` (30_encoding R84). -/
def Ports.xrValue (p : Ports) : Int := p.xr.toInt

/-- `zext_32(op.N)` (30_encoding R84). -/
def Ports.nValue (p : Ports) : Nat := p.n.toNat

/-- `zext_32(op.RATE)` (30_encoding R84). -/
def Ports.rateValue (p : Ports) : Nat := p.rate.toNat

/-- `zext_32(op.LIN)` (30_encoding R84). -/
def Ports.linValue (p : Ports) : Nat := p.lin.toNat

end Sys2Proof.Machine
end

