-- ==== Sys2Proof/Machine/Ops.lean ====
section
/-! DEFINITION. The named operations over the state: reading and writing a unit, RESULT and CAL; taking a
fault or a refusal (60_exceptions R206, R211); leaving the stopped state by reset (70_reset_and_hazards
R230); and `attempt`, the frame every command runs in (60 R200). -/

namespace Sys2Proof.Machine

/-- `E[d]` (00_scope R22). -/
def State.unit (s : State) (d : UnitNo) : EnvUnit := s.units[d.toNat]'(d.isLt)

/-- `E[d] <- u`, every field in one step (00_scope R22, 20_memory R65). -/
def State.setUnit (s : State) (d : UnitNo) (u : EnvUnit) : State :=
  { s with units := s.units.set d.toNat u d.isLt }

/-- `MODE[d]` (00_scope R22, 10_state R43). -/
def State.mode (s : State) (d : UnitNo) : Mode := s.cfg.modes[d.toNat]'(d.isLt)

/-- `result <- v` (00_scope R24). -/
def State.writeResult (s : State) (v : Word) : State := { s with result := v, resultWritten := true }

/-- `CAL <- v` (00_scope R22). -/
def State.setCal (s : State) (v : Word) : State := { s with cal := v }

/-- The read-only services a unit consumes inside one command (00_scope R2): the parameters, its mode, the
calibration scalar and the parameter set on the `PARAMS` port. -/
structure Services where
  cfg : Config
  mode : Mode
  cal : Word
  params : ParamWord
  deriving DecidableEq, Repr

/-- The services of unit `d` in the present command. -/
def State.services (s : State) (d : UnitNo) : Services where
  cfg := s.cfg
  mode := s.mode d
  cal := s.cal
  params := s.ports.params

/-- The register `FAULT` after a reason is written: the first reason stays (60_exceptions R206). -/
def Status.latch (old new : Status) : Status :=
  match old with
  | .none => new
  | _ => old

/-- The value the host reads from `FAULT` (60_exceptions R201). -/
def Status.code : Status → Nat
  | .none => 0
  | .fault .uninit => 1
  | .fault .paramRange => 2
  | .fault .rateCode => 3
  | .fault .overflow => 4
  | .fault .operandRange => 5
  | .fault .modeMismatch => 6
  | .fault .race => 7
  | .refused .reservedOp => 8
  | .refused .reservedField => 9
  | .refused .badUnit => 10

/-- A unit whose every field holds any value (60_exceptions R206 b): the free values of fault number
`event`, sixteen places a unit (assumption log 3). -/
def freeUnit (event : Nat) (d : UnitNo) : EnvUnit where
  valid := (Config.freeBits event (16 * d.toNat)).getLsbD 0
  level := Config.freeBits event (16 * d.toNat + 1)
  targetLevel := Config.freeBits event (16 * d.toNat + 2)
  rising := (Config.freeBits event (16 * d.toNat + 3)).getLsbD 0
  phaseIndex := (Config.freeBits event (16 * d.toNat + 4)).setWidth 3
  gateDown := (Config.freeBits event (16 * d.toNat + 5)).getLsbD 0
  increment := Config.freeBits event (16 * d.toNat + 6)
  outputLevel := Config.freeBits event (16 * d.toNat + 7)
  rateScaling := Config.freeBits event (16 * d.toNat + 8)
  holdCount := Config.freeBits event (16 * d.toNat + 9)

/-- `RESULT` holding any value (60_exceptions R206 b). Where no command has written it yet, whether it now
counts as written is free too; where one has, it stays written (assumption log 3). -/
def State.freeResult (s : State) : State :=
  { s with
    result := Config.freeBits s.freeCount 4096
    resultWritten := s.resultWritten || (Config.freeBits s.freeCount 4097).getLsbD 0 }

/-- Every field of each unit in `ds` holding any value (60_exceptions R206 b). -/
def State.freeUnits (s : State) (ds : List UnitNo) : State :=
  ds.foldl (fun t d => t.setUnit d (freeUnit s.freeCount d)) s

/-- TAKING A FAULT (60_exceptions R206, R211): `FAULT` is written if it is NONE, which stops the block
(R208); the units the command names and `RESULT` hold any value; `CAL` and every other unit keep theirs. -/
def State.takeFault (s : State) (named : List UnitNo) (r : FaultReason) : State :=
  { (s.freeUnits named).freeResult with
    fault := s.fault.latch (.fault r)
    freeCount := s.freeCount + 1 }

/-- TAKING A REFUSAL (60_exceptions R206 a, R207): nothing changes but `FAULT`. -/
def State.takeRefusal (s : State) (x : RefusalReason) : State :=
  { s with fault := s.fault.latch (.refused x) }

/-- The unit bank with every unit holding any value; an entry that is no unit stays as it is (20_memory R67). -/
def State.freeBank (s : State) : Vector EnvUnit 256 :=
  Vector.ofFn fun i =>
    if i.val < s.cfg.numInstances then freeUnit s.freeCount (BitVec.ofFin i) else s.units[i]

/-- TAKING F_RACE (60_exceptions R205, R206): every unit, `CAL` and `RESULT` hold any value. -/
def State.takeRace (s : State) : State :=
  { s.freeResult with
    units := s.freeBank
    cal := Config.freeBits s.freeCount 4098
    fault := s.fault.latch (.fault .race)
    freeCount := s.freeCount + 1 }

/-- THE RESET EVENT (70_reset_and_hazards R230), which alone leaves the stopped state (60_exceptions R208):
every item of state goes to its reset value; the ROMs, `MODE` and the other parameters do not change, nor do
the host's ports and what it does next (assumption log 14). -/
def State.hardReset (s : State) : State :=
  { State.reset with
    cfg := s.cfg
    ports := s.ports
    inbox := s.inbox
    freeCount := s.freeCount }

/-- The frame of every command (60_exceptions R200): a stopped block ignores it (R208); a unit that does not
exist is refused before any operand or state is read (20_memory R67, 30_encoding R87; the decoder has tested
it already, see assumption log 11); a completed body takes effect as one step; a raised fault is taken. -/
def State.attempt (s : State) (i : Instr) (body : Except FaultReason State) :
    Host.Outcome State Fault Refusal :=
  match s.fault with
  | .none =>
    if i.wellFormed s.cfg.numInstances then
      match body with
      | .ok t => .next t
      | .error r => .next (s.takeFault i.units r)
    else .next (s.takeRefusal .badUnit)
  | _ => .next s

/-- `if E[d].valid == 0: raise Fault(F_UNINIT)`, then the rest with the unit's fields (60_exceptions R202). -/
def State.withValid (s : State) (d : UnitNo) (rest : EnvUnit → Except FaultReason State) :
    Except FaultReason State :=
  if (s.unit d).valid then rest (s.unit d) else .error .uninit

/-- `E[d] <- u` where `u` may be a fault raised on the way. -/
def State.putUnit (s : State) (d : UnitNo) (u : Except FaultReason EnvUnit) : Except FaultReason State :=
  u.map (s.setUnit d)

/-- Continue after a step that answers a next state. -/
def andThen (o : Host.Outcome State Fault Refusal) (f : State → Host.Outcome State Fault Refusal) :
    Host.Outcome State Fault Refusal :=
  match o with
  | .next s => f s
  | .fault r => .fault r
  | .refused r => .refused r

/-- The host's read of `RESULT`, which it may do at any time: a read before any command has written it is a
fault of the observation, as the spec says (10_state R45, 92 D31, 93 U5). No command and no step makes it. -/
def State.readResult (s : State) : Except ObservationFault Word :=
  if s.resultWritten then .ok s.result else .error .resultUnwritten

/-- The host's read of `FAULT`, which it may do at any time (60_exceptions R211). -/
def State.readFault (s : State) : Nat := s.fault.code

end Sys2Proof.Machine
end

