-- ==== Sys2Proof/Machine/Calibration.lean ====
section
/-! DEFINITION. The sample-rate calibrator and the command SET_SAMPLE_RATE (43_calibration). -/

namespace Sys2Proof.Machine

/-- `(x * CAL) >> 24` (43_calibration R180): a reference-rate quantity at the engine's rate. -/
def calibrate (cal : Word) (x : Nat) : Nat := (x * cal.toNat) >>> 24

/-- `floor(44100 * 2^24 / rate)` (43_calibration R181). -/
def floorCal (rate : Nat) : Nat := (44100 <<< 24) / rate

/-- `CAL_OF(rate)` (43_calibration R181, R182): the exact floor, or another rounding, which R182 fixes at
44100 and 88200 Hz (assumption log 19). -/
def calOf (rule : CalRule) (rate : Nat) : Nat :=
  match rule with
  | .floor => floorCal rate
  | .other k =>
    if rate = 44100 then 2 ^ 24 else if rate = 88200 then 2 ^ 23 else Config.otherCalOf k rate

/-- SET_SAMPLE_RATE (43_calibration R181). -/
def execSetSampleRate (s : State) : Host.Outcome State Fault Refusal :=
  s.attempt .setSampleRate <|
    if s.ports.rateValue = 0 then .error .operandRange
    else if 2 ^ 32 ≤ calOf s.cfg.calOf s.ports.rateValue then .error .operandRange
    else .ok (s.setCal (BitVec.ofNat 32 (calOf s.cfg.calOf s.ports.rateValue)))

end Sys2Proof.Machine
end

