-- ==== Sys2Proof/Machine/Hold.lean ====
section
/-! DEFINITION. The accurate-timing hold ROM and the hold computation HOLD_SET (44_accurate_timing). -/

namespace Sys2Proof.Machine

/-- `MemRead(HOLDROM, c)` (00_scope R23, 44_accurate_timing R190). -/
def holdRom (cfg : Config) (c : Nat) : Nat := cfg.holdTable.getD c 0

/-- The default of `STATIC_CODE`: `min(r + rs, 99)` (44_accurate_timing R192). -/
def referenceStaticCode (r rs : Int) : Int := min (r + rs) 99

/-- `STATIC_CODE(r, rs, xr)` (44_accurate_timing R192). -/
def staticCode (rule : StaticCodeRule) (r rs xr : Int) : Int :=
  match rule with
  | .reference => referenceStaticCode r rs
  | .other k => Config.otherStaticCode k r rs xr

/-- The hold of code `c` in 0..99 at the reference rate: from the ROM, or extrapolated as `20 * (99 - c)`
past its end (44_accurate_timing R195). -/
def holdReference (cfg : Config) (c : Nat) : Nat :=
  if c < cfg.holdTable.length then holdRom cfg c else 20 * (99 - c)

/-- Whether a zero-level attack divides the hold of code `c` by 20 (44_accurate_timing R195, R198). -/
def zeroAttackDivides (cfg : Config) (c : Nat) (za : Bool) : Bool :=
  za && (cfg.zaDivAll || decide (c < cfg.holdTable.length))

/-- The calibrated hold of code `c` before its range check (44_accurate_timing R195). -/
def holdValue (cfg : Config) (cal : Word) (c : Nat) (za : Bool) : Nat :=
  calibrate cal
    (if zeroAttackDivides cfg c za then holdReference cfg c / 20 else holdReference cfg c)

/-- `HOLD(c, za)` (44_accurate_timing R195). -/
def hold (cfg : Config) (cal : Word) (c : Nat) (za : Bool) : Except FaultReason Int :=
  chk32 (holdValue cfg cal c za)

/-- A zero-level attack: the phase entered is 0 and `levels[0]` is 0 (44_accurate_timing R193). -/
def zeroLevelAttack (k : Fin 5) (l : Nat) : Bool := decide (k = 0) && decide (l = 0)

/-- `HOLD_SET(d, P, k, r, l, t, xr)` for the unit `u` (44_accurate_timing R194). -/
def holdSet (sv : Services) (u : EnvUnit) (k : Fin 5) (r l : Nat) (t xr : Int) :
    Except FaultReason Int :=
  if t ≠ u.level.toInt ∧ zeroLevelAttack k l = false then .ok 0
  else
    let c := staticCode sv.cfg.staticCode r u.rateScaling.toInt xr
    if c < 0 ∨ 99 < c then .error .rateCode
    else hold sv.cfg sv.cal c.toNat (zeroLevelAttack k l)

end Sys2Proof.Machine
end

