-- ==== Sys2Proof/Machine/LevelScaling.lean ====
section
/-! DEFINITION. The level-scaling function and the command LEVEL_SCALE (42_level_scaling). -/

namespace Sys2Proof.Machine

/-- `LEVEL_SCALE(x)` (42_level_scaling R170): `MemRead(LUT, x)` below 20, else `28 + x`. -/
def levelScale (cfg : Config) (x : Nat) : Nat :=
  if h : x < 20 then cfg.levelLut[x] else 28 + x

/-- LEVEL_SCALE (42_level_scaling R171). -/
def execLevelScale (s : State) : Host.Outcome State Fault Refusal :=
  s.attempt .levelScale <|
    if 127 < s.ports.linValue then .error .operandRange
    else .ok (s.writeResult (BitVec.ofNat 32 (levelScale s.cfg s.ports.linValue)))

end Sys2Proof.Machine
end

