-- ==== Sys2Proof/Machine/Advance.lean ====
section
/-! DEFINITION. The internal operation ADVANCE and the rate-to-slope engine (41_advance). -/

namespace Sys2Proof.Machine

/-- `((s >> 1) << 6) + ol - BLEND_OFFSET`, the blend before its floor (41_advance R141). -/
def blend (cfg : Config) (l : Nat) (ol : Int) : Int :=
  (((levelScale cfg l >>> 1) <<< 6 : Nat) : Int) + ol - cfg.blendOffset

/-- `TARGET(l, ol)` (41_advance R141): the blend, at least 16, in Q16. -/
def target (cfg : Config) (l : Nat) (ol : Int) : Except FaultReason Int :=
  match chk32 (blend cfg l ol) with
  | .error e => .error e
  | .ok b => chk32 (max b 16 * 65536)

/-- The default of `RATE_CODE`: `((r * 41) >> 6) + rs + xr` (41_advance R144). -/
def referenceRateCode (r rs xr : Int) : Int := ((r * 41) >>> (6 : Nat)) + rs + xr

/-- `RATE_CODE(r, rs, xr)` (41_advance R144). -/
def rateCode (rule : RateCodeRule) (r rs xr : Int) : Int :=
  match rule with
  | .reference => referenceRateCode r rs xr
  | .other k => Config.otherRateCode k r rs xr

/-- `INC_REF(q)` = `(4 + q[1:0]) << (2 + q[5:2])`, for `q` in 0..63 (41_advance R146). -/
def incRef (q : Nat) : Nat := (4 + q % 4) <<< (2 + q / 4)

/-- `INC(q)` (41_advance R148). -/
def inc (cal : Word) (q : Nat) : Nat := calibrate cal (incRef q)

/-- The slope rate code after its clamp, or F_RATE_CODE below 0 (41_advance R145). -/
def clampRate (q : Int) : Except FaultReason Nat :=
  if q < 0 then .error .rateCode else .ok (min q 63).toNat

/-- The hold count that an ADVANCE to the active phase `k` leaves: HOLD_SET in an ACCURATE unit, the old
value in a STANDARD one (41_advance R149). -/
def advanceHold (sv : Services) (u : EnvUnit) (k : Fin 5) (r l : Nat) (t xr : Int) :
    Except FaultReason Word :=
  match sv.mode with
  | .standard => .ok u.holdCount
  | .accurate => (holdSet sv u k r l t xr).map ofValue

/-- `ADVANCE(d, P, k, xr)` on the unit `u` (41_advance R140). The tests come in the order of its pseudocode,
so the first one that fails gives the fault (60_exceptions R209 c). -/
def advance (sv : Services) (k : Fin 5) (xr : Int) (u : EnvUnit) : Except FaultReason EnvUnit :=
  if k = 4 then .ok { u with phaseIndex := 4 }
  else
    let r := rateParam sv.params k.val
    let l := levelParam sv.params k.val
    if 99 < r ∨ 99 < l then .error .paramRange
    else
      match target sv.cfg l u.outputLevel.toInt with
      | .error e => .error e
      | .ok t =>
        match clampRate (rateCode sv.cfg.rateCode r u.rateScaling.toInt xr) with
        | .error e => .error e
        | .ok q =>
          match advanceHold sv u k r l t xr with
          | .error e => .error e
          | .ok h =>
            .ok { u with
              phaseIndex := BitVec.ofNat 3 k.val
              targetLevel := ofValue t
              rising := risingFlag t u.level
              holdCount := h
              increment := BitVec.ofNat 32 (inc sv.cal q) }

/-- ADVANCE as the table's own row (41_advance R140; internal, 30_encoding R90): the operation on unit `d`
with the parameter set on the `PARAMS` port. No decoded word runs it (assumption log 10). -/
def execAdvance (d : UnitNo) (k : Fin 5) (xr : Word) (s : State) : Host.Outcome State Fault Refusal :=
  s.attempt (.advance d k xr) <| s.putUnit d (advance (s.services d) k xr.toInt (s.unit d))

end Sys2Proof.Machine
end

