-- ==== Sys2Proof/Machine/Envelope.lean ====
section
/-! DEFINITION. The envelope commands INIT, KEYDOWN, UPDATE, GETPOSITION and TRANSFER
(40_envelope_ops). -/

namespace Sys2Proof.Machine

/-- The fields INIT writes before it calls ADVANCE (40_envelope_ops R100); the others are `u`'s. -/
def initFields (p : Ports) (u : EnvUnit) : EnvUnit :=
  { u with
    outputLevel := p.ol
    rateScaling := p.rs
    level := 0
    gateDown := true
    holdCount := 0
    valid := true }

/-- INIT (40_envelope_ops R100). -/
def execInit (d : UnitNo) (s : State) : Host.Outcome State Fault Refusal :=
  s.attempt (.init d) <| s.putUnit d (advance (s.services d) 0 0 (initFields s.ports (s.unit d)))

/-- KEYDOWN (40_envelope_ops R104): an unchanged gate changes nothing and reads nothing of `PARAMS`. -/
def execKeydown (d : UnitNo) (g : Bool) (s : State) : Host.Outcome State Fault Refusal :=
  s.attempt (.keydown d g) <| s.withValid d fun u =>
    if g = u.gateDown then .ok s
    else s.putUnit d (advance (s.services d) (gatePhase g) 0 { u with gateDown := g })

/-- UPDATE (40_envelope_ops R120): with the gate released it changes nothing (R121). -/
def execUpdate (d : UnitNo) (s : State) : Host.Outcome State Fault Refusal :=
  s.attempt (.update d) <| s.withValid d fun u =>
    if u.gateDown then
      s.putUnit d (advance (s.services d) 2 0
        { u with outputLevel := s.ports.ol, rateScaling := s.ports.rs })
    else .ok s

/-- GETPOSITION (40_envelope_ops R124): the phase index, zero-extended (R126). -/
def execGetposition (d : UnitNo) (s : State) : Host.Outcome State Fault Refusal :=
  s.attempt (.getposition d) <| s.withValid d fun u =>
    .ok (s.writeResult (u.phaseIndex.setWidth 32))

/-- TRANSFER (40_envelope_ops R127): every field of the source unit, `valid` among them; the destination
may be invalid before. -/
def execTransfer (dst src : UnitNo) (s : State) : Host.Outcome State Fault Refusal :=
  s.attempt (.transfer dst src) <| s.withValid src fun u =>
    if s.mode dst ≠ s.mode src then .error .modeMismatch
    else .ok (s.setUnit dst u)

end Sys2Proof.Machine
end

