-- ==== Sys2Proof/Machine/Sample.lean ====
section
/-! DEFINITION. GETSAMPLE: the hold countdown, the fixed-point level incrementer and the auto-chaining of
phases (40_envelope_ops R108 to R119). -/

namespace Sys2Proof.Machine

/-- `RISE_STEP_default` (40_envelope_ops R112): warm-up jump and level-dependent gain. -/
def referenceRiseStep (level inc n : Int) : Except FaultReason Int :=
  let l0 := max level 112459776
  let f := (285212672 - l0) >>> (24 : Nat)
  match chk32 (f * inc * n) with
  | .error e => .error e
  | .ok m => chk32 (l0 + m)

/-- `RISE_STEP_plain` (40_envelope_ops R112). -/
def plainRiseStep (level inc n : Int) : Except FaultReason Int :=
  match chk32 (inc * n) with
  | .error e => .error e
  | .ok m => chk32 (level + m)

/-- `RISE_STEP(level, inc, n)` (40_envelope_ops R112): whatever the instantiation, a value outside the
signed 32-bit range is F_OVERFLOW (assumption log 9). -/
def riseStep (rule : RiseStepRule) (level inc n : Int) : Except FaultReason Int :=
  match rule with
  | .reference => referenceRiseStep level inc n
  | .plain => plainRiseStep level inc n
  | .other k =>
    match Config.otherRiseStep k level inc n with
    | some c => chk32 c
    | none => .error .overflow

/-- The hold countdown of GETSAMPLE (40_envelope_ops R110). -/
def countHold (sv : Services) (n : Nat) (xr : Int) (u : EnvUnit) : Except FaultReason EnvUnit :=
  if sv.mode = .accurate ∧ u.holdCount ≠ 0 then
    if u.holdCount.toInt - n ≤ 0 then advance sv (nextPhase u) xr { u with holdCount := 0 }
    else .ok { u with holdCount := ofValue (u.holdCount.toInt - n) }
  else .ok u

/-- The rising branch (40_envelope_ops R112, R113). -/
def stepRising (sv : Services) (n : Nat) (xr : Int) (u : EnvUnit) : Except FaultReason EnvUnit :=
  match riseStep sv.cfg.riseStep u.level.toInt u.increment.toInt n with
  | .error e => .error e
  | .ok c =>
    if u.targetLevel.toInt ≤ c then advance sv (nextPhase u) xr { u with level := u.targetLevel }
    else .ok { u with level := ofValue c }

/-- The falling branch (40_envelope_ops R113, R114). -/
def stepFalling (sv : Services) (n : Nat) (xr : Int) (u : EnvUnit) : Except FaultReason EnvUnit :=
  match chk32 (u.increment.toInt * n) with
  | .error e => .error e
  | .ok m =>
    if u.level.toInt - m ≤ u.targetLevel.toInt then
      advance sv (nextPhase u) xr { u with level := u.targetLevel }
    else .ok { u with level := ofValue (u.level.toInt - m) }

/-- The batch step of `n` samples (40_envelope_ops R109, R115): frozen outside the stepping window and
during a hold; at most one advance. -/
def stepLevel (sv : Services) (n : Nat) (xr : Int) (u : EnvUnit) : Except FaultReason EnvUnit :=
  if inSteppingWindow sv.cfg u = false then .ok u
  else if u.holdCount ≠ 0 then .ok u
  else if u.rising then stepRising sv n xr u
  else stepFalling sv n xr u

/-- What GETSAMPLE with `n` > 0 does to its unit: the countdown, then the batch step on the phase it leaves
(40_envelope_ops R108). -/
def sampleUnit (sv : Services) (n : Nat) (xr : Int) (u : EnvUnit) : Except FaultReason EnvUnit :=
  match countHold sv n xr u with
  | .error e => .error e
  | .ok v => stepLevel sv n xr v

/-- GETSAMPLE (40_envelope_ops R108); `n` = 0 only writes RESULT (R111). -/
def execGetsample (d : UnitNo) (s : State) : Host.Outcome State Fault Refusal :=
  s.attempt (.getsample d) <| s.withValid d fun u =>
    if 2 ^ 31 ≤ s.ports.nValue then .error .operandRange
    else if s.ports.nValue = 0 then .ok (s.writeResult u.level)
    else
      (sampleUnit (s.services d) s.ports.nValue s.ports.xrValue u).map fun v =>
        (s.setUnit d v).writeResult v.level

end Sys2Proof.Machine
end

