-- ==== Sys2Proof/Machine/Dispatch.lean ====
section
/-! DEFINITION. Which meaning each command has. -/

namespace Sys2Proof.Machine

/-- The meaning of a command (spec/opcode_table.json, one arm a row). -/
def exec (i : Instr) (s : State) : Host.Outcome State Fault Refusal :=
  match i with
  | .init d => Sys2Proof.Machine.execInit d s
  | .keydown d g => Sys2Proof.Machine.execKeydown d g s
  | .getsample d => Sys2Proof.Machine.execGetsample d s
  | .update d => Sys2Proof.Machine.execUpdate d s
  | .getposition d => Sys2Proof.Machine.execGetposition d s
  | .transfer d e => Sys2Proof.Machine.execTransfer d e s
  | .setSampleRate => Sys2Proof.Machine.execSetSampleRate s
  | .levelScale => Sys2Proof.Machine.execLevelScale s
  | .advance d k xr => Sys2Proof.Machine.execAdvance d k xr s

end Sys2Proof.Machine
end

