-- ==== Sys2Proof/Machine/Issue.lean ====
section
/-! DEFINITION. How what the host does reaches the block: one command at a time (30_encoding R80, R87),
several that overlap in time (20_memory R71), and the reset event (70_reset_and_hazards R230). -/

namespace Sys2Proof.Machine

/-- Present one command. A stopped block ignores it (60_exceptions R208); a word the decoder refuses reads no
operand and no state (30_encoding R87); else the ports are latched and the command runs (00_scope R24). -/
def present (c : Command) (s : State) : Host.Outcome State Fault Refusal :=
  match s.fault with
  | .none =>
    match decode s.cfg.numInstances c.word with
    | .error x => .next (s.takeRefusal x)
    | .ok i => exec i { s with ports := c.ports }
  | _ => .next s

/-- The commands that must not overlap a SET_SAMPLE_RATE (20_memory R71 a). -/
def readsCal : Instr → Bool
  | .init _ => true
  | .keydown _ _ => true
  | .getsample _ => true
  | .update _ => true
  | .getposition _ => false
  | .transfer _ _ => false
  | .setSampleRate => false
  | .levelScale => false
  | .advance _ _ _ => true

/-- A forbidden pair (20_memory R71): (a) SET_SAMPLE_RATE with a command that may advance a unit; (b) TRANSFER
with a command on its source or destination; (c) two commands on one unit. -/
def forbiddenPair (i j : Instr) : Bool :=
  (decide (i = .setSampleRate) && readsCal j) || (decide (j = .setSampleRate) && readsCal i)
    || i.units.any fun d => j.units.contains d

/-- The commands among `cs` that the decoder accepts. -/
def decodedOf (n : Nat) (cs : List Command) : List Instr :=
  cs.filterMap fun c => (decode n c.word).toOption

/-- Whether some pair among the overlapping commands is forbidden. -/
def hasForbiddenPair (n : Nat) (cs : List Command) : Bool :=
  !decide ((decodedOf n cs).Pairwise fun i j => forbiddenPair i j = false)

/-- Let `k` of the commands `cs` take effect one after another, each time any one that is left: the order
is a free value (20_memory R71 "any order of them"; assumption log 13). -/
def runInSomeOrder : Nat → List Command → State → Host.Outcome State Fault Refusal
  | 0, _, s => .next s
  | k + 1, cs, s =>
    match cs[Config.freeOrder s.freeCount % cs.length]? with
    | none => .next s
    | some c =>
      andThen (present c { s with freeCount := s.freeCount + 1 })
        (runInSomeOrder k (cs.eraseIdx (Config.freeOrder s.freeCount % cs.length)))

/-- Present commands that overlap in time: a forbidden pair is F_RACE (20_memory R71, 60_exceptions R205),
otherwise each takes effect as one step, in some order. A stopped block ignores them. -/
def presentOverlap (cs : List Command) (s : State) : Host.Outcome State Fault Refusal :=
  match s.fault with
  | .none =>
    if hasForbiddenPair s.cfg.numInstances cs then .next s.takeRace
    else runInSomeOrder cs.length cs s
  | _ => .next s

/-- What the block does about one host event. -/
def handle (e : HostEvent) (s : State) : Host.Outcome State Fault Refusal :=
  match e with
  | .command c => present c s
  | .overlap cs => presentOverlap cs s
  | .reset => .next s.hardReset

/-- Take the host's next event; with none the block is idle (60_exceptions R218, 00_scope R7). -/
def issue (s : State) : Host.Outcome State Fault Refusal :=
  match s.inbox with
  | [] => .next s
  | e :: rest => handle e { s with inbox := rest }

/-- `s` with the command word of an opcode-table row as the host's next event, its operands on the ports as
they are latched in `s`; a row that is no command word adds nothing. -/
def State.offerTableWord (s : State) (nbits w : Nat) : State :=
  match tableWord nbits w with
  | some cw => { s with inbox := .command ⟨cw, s.ports⟩ :: s.inbox }
  | none => s

end Sys2Proof.Machine
end

