-- ==== Sys2Proof/Machine/Step.lean ====
section
/-! DEFINITION. One step of the machine: the block's answer to the host's next event. -/

namespace Sys2Proof.Machine

/-- One step (00_scope R6: a command is a single atomic step). -/
def step (s : State) : Host.Outcome State Fault Refusal := issue s

/-- `s` with an opcode-table row's word placed where `step` takes its next command (assumption log 1). -/
def State.withFetchWord (s : State) (nbits w : Nat) : State := s.offerTableWord nbits w

end Sys2Proof.Machine
end

