-- ==== Sys2Proof/Machine/Assembler.lean ====
section
/-! DEFINITION. The assembler of 30_encoding R91 and R92 over an abstract syntax: what command word and what
operand ports each line stands for. Characters, comments and number formats are left out (assumption log
18). A port that the syntax does not mention is 0; the command ignores it (30_encoding R84). -/

namespace Sys2Proof.Machine

/-- `{r0,r1,r2,r3/l0,l1,l2,l3}` (30_encoding R91). -/
structure ParamSet where
  rates : Vector (BitVec 8) 4
  levels : Vector (BitVec 8) 4
  deriving DecidableEq, Repr

/-- A parameter operand: written out, or a name bound earlier by `.params` (30_encoding R91). -/
inductive ParamRef where
  | literal (p : ParamSet)
  | name (x : String)
  deriving DecidableEq, Repr

/-- One command line: the eight commands of 30_encoding R91, then the pseudo-instructions of R92. -/
inductive Asm where
  | init (d : UnitNo) (p : ParamRef) (ol rs : Word)
  | keydown (d : UnitNo) (p : ParamRef) (g : Bool)
  | getsample (d : UnitNo) (p : ParamRef) (n xr : Word)
  | update (d : UnitNo) (p : ParamRef) (ol rs : Word)
  | getpos (d : UnitNo)
  | transfer (dst src : UnitNo)
  | setrate (rate : Word)
  | lscale (x : Word)
  | noteon (d : UnitNo) (p : ParamRef)
  | noteoff (d : UnitNo) (p : ParamRef)
  | tick (d : UnitNo) (p : ParamRef) (n : Word)
  | peek (d : UnitNo)
  | steal (dst src : UnitNo)
  deriving DecidableEq, Repr

/-- One line of a program (30_encoding R91). -/
inductive AsmLine where
  | params (x : String) (p : ParamSet)
  | op (a : Asm)
  deriving DecidableEq, Repr

/-- The parameter set of `PEEK`, all zeros (30_encoding R92). -/
def zeroParams : ParamSet where
  rates := Vector.replicate 4 0
  levels := Vector.replicate 4 0

/-- The expansion of a pseudo-instruction (30_encoding R92); a command line is its own expansion. -/
def Asm.expand : Asm → Asm
  | .noteon d p => .keydown d p true
  | .noteoff d p => .keydown d p false
  | .tick d p n => .getsample d p n 0
  | .peek d => .getsample d (.literal zeroParams) 0 0
  | .steal dst src => .transfer dst src
  | a => a

/-- The parameter set a reference stands for, among the names bound so far. -/
def ParamRef.resolve (env : List (String × ParamSet)) : ParamRef → Option ParamSet
  | .literal p => some p
  | .name x => env.lookup x

/-- The ports with the parameter set `p` (30_encoding R85). -/
def ParamSet.ports (p : ParamSet) : Ports :=
  { Ports.atReset with params := packParams p.rates p.levels }

/-- A command from an instruction and its operand ports. -/
def Command.ofInstr (i : Instr) (p : Ports) : Option Command :=
  (encode i).map fun w => ⟨w, p⟩

/-- The command word and ports of an expanded line (30_encoding R91). -/
def Asm.assemblePlain (env : List (String × ParamSet)) : Asm → Option Command
  | .init d p ol rs =>
    (p.resolve env).bind fun q => Command.ofInstr (.init d) { q.ports with ol := ol, rs := rs }
  | .keydown d p g => (p.resolve env).bind fun q => Command.ofInstr (.keydown d g) q.ports
  | .getsample d p n xr =>
    (p.resolve env).bind fun q => Command.ofInstr (.getsample d) { q.ports with n := n, xr := xr }
  | .update d p ol rs =>
    (p.resolve env).bind fun q => Command.ofInstr (.update d) { q.ports with ol := ol, rs := rs }
  | .getpos d => Command.ofInstr (.getposition d) Ports.atReset
  | .transfer dst src => Command.ofInstr (.transfer dst src) Ports.atReset
  | .setrate r => Command.ofInstr .setSampleRate { Ports.atReset with rate := r }
  | .lscale x => Command.ofInstr .levelScale { Ports.atReset with lin := x }
  | .noteon _ _ => none
  | .noteoff _ _ => none
  | .tick _ _ _ => none
  | .peek _ => none
  | .steal _ _ => none

/-- The command word and ports of a line (30_encoding R91, R92). -/
def Asm.assemble (env : List (String × ParamSet)) (a : Asm) : Option Command :=
  a.expand.assemblePlain env

/-- The commands of a program, in order; `none` where a name is used that no earlier line binds. DESIGN CHOICE
(log 18): of two bindings of one name the later counts from its line on; 30_encoding R91 says only "bound
earlier". -/
def assembleProgram (env : List (String × ParamSet)) : List AsmLine → Option (List Command)
  | [] => some []
  | .params x p :: rest => assembleProgram ((x, p) :: env) rest
  | .op a :: rest =>
    (a.assemble env).bind fun c => (assembleProgram env rest).map (c :: ·)

end Sys2Proof.Machine
end

