-- ==== Sys2Proof/Safety.lean ====
section
/-! DEFINITION. What counts as a good state and a good run, in the terms the statements use: the invariants
of 10_state R48, the observation of a run (10_state R49), and which commands write what. -/

namespace Sys2Proof.Machine

/-- The invariants I1 to I5 of 10_state R48 for one valid unit of the given mode. The widths of I5 are the
fields' types; what is left of it is that `increment` is non-negative (R37). -/
structure UnitGood (m : Mode) (u : EnvUnit) : Prop where
  /-- I1. -/
  phase : u.phaseIndex.toNat ≤ 4
  /-- I2, in IDLE. -/
  hold_idle : u.phaseIndex = 4 → u.holdCount = 0
  /-- I2, in a STANDARD unit. -/
  hold_standard : m = .standard → u.holdCount = 0
  /-- I3. -/
  hold_nonneg : 0 ≤ u.holdCount.toInt
  /-- I4; the upper bound is the type's. -/
  target_floor : 1048576 ≤ u.targetLevel.toInt
  /-- R37. -/
  increment_nonneg : 0 ≤ u.increment.toInt

/-- Every valid unit is good, unless a fault or refusal has stopped the block (10_state R48). -/
def State.Good (s : State) : Prop :=
  s.fault = .none → ∀ d : UnitNo, (s.unit d).valid = true → UnitGood (s.mode d) (s.unit d)

/-- The block is not stopped (60_exceptions R208). -/
def State.Running (s : State) : Prop := s.fault = .none

/-- The unit `d` exists (20_memory R67). -/
def State.Exists (s : State) (d : UnitNo) : Prop := d.toNat < s.cfg.numInstances

/-! ### Entering an active phase, in closed form (41_advance R140 to R149, 44_accurate_timing R194, R195) -/

/-- The blend of phase `k` for the unit `u` before its floor (41_advance R141): `((s >> 1) << 6) + ol -
BLEND_OFFSET`, where `s` is the scaled level (42_level_scaling R170). -/
def phaseBlend (sv : Services) (k : Fin 5) (u : EnvUnit) : Int :=
  let l := levelParam sv.params k.val
  let s := if h : l < 20 then sv.cfg.levelLut[l] else 28 + l
  ((s / 2 * 64 : Nat) : Int) + u.outputLevel.toInt - sv.cfg.blendOffset

/-- The target level of phase `k` for the unit `u` (41_advance R141), as a number: the blend, at least 16, in
Q16. -/
def phaseTarget (sv : Services) (k : Fin 5) (u : EnvUnit) : Int := max (phaseBlend sv k u) 16 * 65536

/-- The unclamped rate code of phase `k` for the unit `u` (41_advance R144): the default formula, or an
unstated function (log 9). -/
def phaseRateCode (sv : Services) (k : Fin 5) (xr : Int) (u : EnvUnit) : Int :=
  let r : Int := rateParam sv.params k.val
  match sv.cfg.rateCode with
  | .reference => r * 41 / 64 + u.rateScaling.toInt + xr
  | .other f => Config.otherRateCode f r u.rateScaling.toInt xr

/-- The static code of phase `k` for the unit `u` (44_accurate_timing R192): the default formula, or an
unstated function (log 9). -/
def phaseStaticCode (sv : Services) (k : Fin 5) (xr : Int) (u : EnvUnit) : Int :=
  let r : Int := rateParam sv.params k.val
  match sv.cfg.staticCode with
  | .reference => min (r + u.rateScaling.toInt) 99
  | .other f => Config.otherStaticCode f r u.rateScaling.toInt xr

/-- Whether entering phase `k` is a zero-level attack (44_accurate_timing R193). -/
def zeroAttack (sv : Services) (k : Fin 5) : Bool :=
  decide (k = 0 ∧ levelParam sv.params 0 = 0)

/-- Whether entering phase `k` computes a hold: an ACCURATE unit whose target equals its level, or a
zero-level attack (44_accurate_timing R194). -/
def holdsOnEntry (sv : Services) (k : Fin 5) (u : EnvUnit) : Prop :=
  sv.mode = .accurate ∧ (phaseTarget sv k u = u.level.toInt ∨ zeroAttack sv k = true)

/-- The hold in samples at the engine's rate for the code `c` (44_accurate_timing R195), as a number. -/
def holdSamples (cfg : Config) (cal : Word) (c : Nat) (za : Bool) : Nat :=
  let h0 := if c < cfg.holdTable.length then cfg.holdTable.getD c 0 else 20 * (99 - c)
  let h1 := if za = true ∧ (cfg.zaDivAll = true ∨ c < cfg.holdTable.length) then h0 / 20 else h0
  h1 * cal.toNat / 2 ^ 24

/-- The conditions on the operands and the unit under which entering the active phase `k` raises no fault
(41_advance R140, 44_accurate_timing R194). -/
structure EntryRuns (sv : Services) (k : Fin 5) (xr : Int) (u : EnvUnit) : Prop where
  /-- R151. -/
  rate : rateParam sv.params k.val ≤ 99
  /-- R151. -/
  level : levelParam sv.params k.val ≤ 99
  /-- R141: the blend is representable. -/
  blend_low : -2147483648 ≤ phaseBlend sv k u
  /-- R141: "limits `b` to at most 32767". -/
  blend_high : phaseBlend sv k u ≤ 32767
  /-- R145. -/
  code : 0 ≤ phaseRateCode sv k xr u
  /-- 44_accurate_timing R194. -/
  static_low : holdsOnEntry sv k u → 0 ≤ phaseStaticCode sv k xr u
  /-- 44_accurate_timing R194. -/
  static_high : holdsOnEntry sv k u → phaseStaticCode sv k xr u ≤ 99
  /-- 44_accurate_timing R195: the hold is representable. -/
  hold : holdsOnEntry sv k u →
    holdSamples sv.cfg sv.cal (phaseStaticCode sv k xr u).toNat (zeroAttack sv k) ≤ 2147483647

/-- The hold count after entering the active phase `k` (41_advance R149, 44_accurate_timing R194). -/
def enteredHold (sv : Services) (k : Fin 5) (xr : Int) (u : EnvUnit) : Word :=
  match sv.mode with
  | .standard => u.holdCount
  | .accurate =>
    if phaseTarget sv k u = u.level.toInt ∨ zeroAttack sv k = true then
      BitVec.ofNat 32
        (holdSamples sv.cfg sv.cal (phaseStaticCode sv k xr u).toNat (zeroAttack sv k))
    else 0

/-- The unit after entering the active phase `k` (41_advance R140): the rate code is clamped to 63 (R145),
the increment is `((4 + q[1:0]) << (2 + q[5:2])) * CAL >> 24` (R146, R148). -/
def entered (sv : Services) (k : Fin 5) (xr : Int) (u : EnvUnit) : EnvUnit :=
  let q := (min (phaseRateCode sv k xr u) 63).toNat
  { u with
    phaseIndex := BitVec.ofNat 3 k.val
    targetLevel := BitVec.ofInt 32 (phaseTarget sv k u)
    rising := decide (u.level.toInt < phaseTarget sv k u)
    holdCount := enteredHold sv k xr u
    increment := BitVec.ofNat 32 ((4 + q % 4) * 2 ^ (2 + q / 4) * sv.cal.toNat / 2 ^ 24) }

/-- The phase `phaseIndex + 1` (41_advance R140), read for a unit in phase 0 to 3. -/
def phaseAfter (u : EnvUnit) : Fin 5 := Fin.ofNat 5 (u.phaseIndex.toNat + 1)

/-- The unit after the phase it is in ends (40_envelope_ops R113): IDLE after phase 3 (41_advance R150), the
next active phase otherwise. -/
def chained (sv : Services) (xr : Int) (u : EnvUnit) : EnvUnit :=
  if u.phaseIndex = 3 then { u with phaseIndex := 4 }
  else entered sv (phaseAfter u) xr u

/-- The conditions under which the phase that `u` is in can end: it is active, and the next phase, if it is
active too, can be entered. -/
def ChainRuns (sv : Services) (xr : Int) (u : EnvUnit) : Prop :=
  u.phaseIndex.toNat ≤ 3 ∧ (u.phaseIndex ≠ 3 → EntryRuns sv (phaseAfter u) xr u)

/-! ### Overlapping commands -/

/-- Two commands that must not overlap in time (20_memory R71): (a) SET_SAMPLE_RATE with INIT, KEYDOWN,
GETSAMPLE or UPDATE on any unit, (b) and (c) two commands that name one unit. -/
def MustNotOverlap (i j : Instr) : Prop :=
  (i = .setSampleRate ∧
      ∃ d, j = .init d ∨ (∃ g, j = .keydown d g) ∨ j = .getsample d ∨ j = .update d)
    ∨ (j = .setSampleRate ∧
      ∃ d, i = .init d ∨ (∃ g, i = .keydown d g) ∨ i = .getsample d ∨ i = .update d)
    ∨ ∃ d, d ∈ i.units ∧ d ∈ j.units

/-! ### Which command writes what -/

/-- The commands that write RESULT when they complete (10_state R45). -/
def writesResult : Instr → Bool
  | .init _ => false
  | .keydown _ _ => false
  | .getsample _ => true
  | .update _ => false
  | .getposition _ => true
  | .transfer _ _ => false
  | .setSampleRate => false
  | .levelScale => true
  | .advance _ _ _ => false

/-- The unit whose fields a completed command may write: its own `DST` (40_envelope_ops R131). -/
def writtenUnit : Instr → Option UnitNo
  | .init d => some d
  | .keydown d _ => some d
  | .getsample d => some d
  | .update d => some d
  | .getposition _ => none
  | .transfer d _ => some d
  | .setSampleRate => none
  | .levelScale => none
  | .advance d _ _ => some d

/-- `k` steps, stopping at the first that answers no next state. -/
def runSteps : Nat → State → Host.Outcome State Fault Refusal
  | 0, s => .next s
  | k + 1, s => andThen (step s) (runSteps k)

/-- The RESULT value that presenting `c` in `s` writes, if it writes one (10_state R49). -/
def writtenResult (c : Command) (s t : State) : List Word :=
  match s.fault, t.fault, decode s.cfg.numInstances c.word with
  | .none, .none, .ok i => if writesResult i then [t.result] else []
  | _, _, _ => []

/-- The observation of a run (10_state R49, 92_eei_decisions D37): the RESULT values written, in order, and the
state it ends in, for a finite sequence of commands from `s`. -/
def observeRun : List Command → State → List Word × State
  | [], s => ([], s)
  | c :: cs, s =>
    match present c s with
    | .next t =>
      let o := observeRun cs t
      (writtenResult c s t ++ o.1, o.2)
    | _ => ([], s)

/-- A command on one unit that TRANSFER's trajectory property speaks of (40_envelope_ops R129), with its
operand ports. -/
inductive Drive where
  | getsample (p : Ports)
  | keydown (p : Ports) (g : Bool)
  | update (p : Ports)
  deriving DecidableEq, Repr

/-- The command on the unit `d`. -/
def Drive.instr (d : UnitNo) : Drive → Instr
  | .getsample _ => .getsample d
  | .keydown _ g => .keydown d g
  | .update _ => .update d

/-- Its operand ports. -/
def Drive.ports : Drive → Ports
  | .getsample p => p
  | .keydown p _ => p
  | .update p => p

/-- Drive the unit `d` through the sequence `cs`, latching each command's ports. -/
def drive (d : UnitNo) : List Drive → State → Host.Outcome State Fault Refusal
  | [], s => .next s
  | c :: cs, s => andThen (exec (c.instr d) { s with ports := c.ports }) (drive d cs)

end Sys2Proof.Machine
end

