-- ==== Sys2Proof/Certificates/Slice0/Obligations.lean ====
section
/-! DEFINITION. The statements for the provers, by subject: encoding, steps, invariants, faults, then the
commands in the table's order. -/

open Sys2Proof Sys2Proof.Machine

/-! ## Encoding -/

/-- 30_encoding R82, R87: the decoder reads back every well-formed command from its word. -/
def Obligations.EncodedCommandsDecode : Prop :=
  ∀ (n : Nat) (i : Instr) (w : Word), i.wellFormed n = true → encode i = some w → decode n w = .ok i

/-- 30_encoding R82, R83, R90: a word that decodes is the one word of its command and names existing units; and
ADVANCE, alone, has no word. -/
def Obligations.DecodedWordsEncode : Prop :=
  (∀ (n : Nat) (w : Word) (i : Instr), decode n w = .ok i → encode i = some w ∧ i.wellFormed n = true)
  ∧ ∀ i : Instr, encode i = none ↔ ∃ d k xr, i = .advance d k xr

/-- 30_encoding R88 (the spec's own inference from R82): at most one row matches a word; rows differ in w[3:0],
which every mask covers. -/
def Obligations.AtMostOneRowMatches : Prop :=
  (∀ (w : Word) (op op' : BitVec 4) (m m' : Word), rowMask op = some m → rowMask op' = some m' →
    w &&& m = rowMatch op → w &&& m' = rowMatch op' → op = op')
  ∧ (∀ (op : BitVec 4) (m : Word), rowMask op = some m → m &&& 0xF#32 = 0xF#32)

/-- 30_encoding R87 with the table of R82 written out and the fields of R81 as arithmetic on the word: the three
tests in their order, and the command of a word that passes them. -/
def Obligations.DecodeProcedure : Prop :=
  ∀ (n : Nat) (w : Word),
    ((w.toNat % 16 = 0 ∨ 9 ≤ w.toNat % 16) → decode n w = .error .reservedOp)
    ∧ ∀ (mask : Word) (i : Instr),
        (w.toNat % 16, mask, i) ∈
          [(1, 0xFFFF00FF#32, Instr.init (BitVec.ofNat 8 (w.toNat / 256))),
           (2, 0xFFFF00EF#32,
             Instr.keydown (BitVec.ofNat 8 (w.toNat / 256)) (decide (w.toNat / 16 % 2 = 1))),
           (3, 0xFFFF00FF#32, Instr.getsample (BitVec.ofNat 8 (w.toNat / 256))),
           (4, 0xFFFF00FF#32, Instr.update (BitVec.ofNat 8 (w.toNat / 256))),
           (5, 0xFFFF00FF#32, Instr.getposition (BitVec.ofNat 8 (w.toNat / 256))),
           (6, 0xFF0000FF#32,
             Instr.transfer (BitVec.ofNat 8 (w.toNat / 256)) (BitVec.ofNat 8 (w.toNat / 65536))),
           (7, 0xFFFFFFFF#32, Instr.setSampleRate),
           (8, 0xFFFFFFFF#32, Instr.levelScale)] →
        (w &&& mask ≠ BitVec.ofNat 32 (w.toNat % 16) → decode n w = .error .reservedField)
        ∧ (w &&& mask = BitVec.ofNat 32 (w.toNat % 16) → (∃ d ∈ i.units, n ≤ d.toNat) →
            decode n w = .error .badUnit)
        ∧ (w &&& mask = BitVec.ofNat 32 (w.toNat % 16) → (∀ d ∈ i.units, d.toNat < n) →
            decode n w = .ok i)

/-- 30_encoding R93: the worked encodings, for a block of at least 6 units as one of 8 units. -/
def Obligations.WorkedEncodings : Prop :=
  decode 8 0x00000001#32 = .ok (.init 0)
  ∧ decode 8 0x00000301#32 = .ok (.init 3) ∧ decode 8 0x00000312#32 = .ok (.keydown 3 true)
  ∧ decode 8 0x00000302#32 = .ok (.keydown 3 false) ∧ decode 8 0x00000303#32 = .ok (.getsample 3)
  ∧ decode 8 0x00000304#32 = .ok (.update 3) ∧ decode 8 0x00000305#32 = .ok (.getposition 3)
  ∧ decode 8 0x00030506#32 = .ok (.transfer 5 3) ∧ decode 8 0x00000007#32 = .ok .setSampleRate
  ∧ decode 8 0x00000008#32 = .ok .levelScale ∧ decode 8 0x00000000#32 = .error .reservedOp
  ∧ decode 8 0x00000311#32 = .error .reservedField ∧ decode 8 0x00010301#32 = .error .reservedField
  ∧ decode 8 0x00000107#32 = .error .reservedField

/-- 30_encoding R85: byte k of PARAMS is `rates[k]`, byte 4 + k is `levels[k]`, read as unsigned. -/
def Obligations.ParamBytes : Prop :=
  (∀ (p : ParamWord) (k : Nat), k < 4 →
    rateParam p k = p.toNat / 2 ^ (8 * k) % 256 ∧ levelParam p k = p.toNat / 2 ^ (8 * k + 32) % 256)
  ∧ ∀ (r l : Vector (BitVec 8) 4) (k : Fin 4),
      rateParam (packParams r l) k = r[k].toNat ∧ levelParam (packParams r l) k = l[k].toNat

/-- 30_encoding R91, R92: every assembler line stands for the command it names, with its operands on the
ports; the pseudo-instructions for their expansions; a name stands for the set that an earlier `.params` binds
it to; a program is its lines in order. The ports a line does not mention are 0, and of two bindings of one name
the later counts: both are the model's choice (log 18). -/
def Obligations.AssembledLinesDecode : Prop :=
  ∀ (env : List (String × ParamSet)) (d e : UnitNo) (p q : ParamSet) (ol rs n xr rate x : Word) (g : Bool),
    let zero := Ports.atReset;
    let ports := { Ports.atReset with params := packParams p.rates p.levels };
    let stands := fun (a : Asm) (i : Instr) (o : Ports) =>
      ∃ w, a.assemble env = some ⟨w, o⟩ ∧ decode 256 w = .ok i;
    stands (.init d (.literal p) ol rs) (.init d) { ports with ol := ol, rs := rs }
    ∧ stands (.keydown d (.literal p) g) (.keydown d g) ports
    ∧ stands (.getsample d (.literal p) n xr) (.getsample d) { ports with n := n, xr := xr }
    ∧ stands (.update d (.literal p) ol rs) (.update d) { ports with ol := ol, rs := rs }
    ∧ stands (.getpos d) (.getposition d) zero
    ∧ stands (.transfer d e) (.transfer d e) zero
    ∧ stands (.setrate rate) .setSampleRate { zero with rate := rate }
    ∧ stands (.lscale x) .levelScale { zero with lin := x }
    ∧ (Asm.noteon d (.literal p)).assemble env = (Asm.keydown d (.literal p) true).assemble env
    ∧ (Asm.noteoff d (.literal p)).assemble env = (Asm.keydown d (.literal p) false).assemble env
    ∧ (Asm.tick d (.literal p) n).assemble env = (Asm.getsample d (.literal p) n 0).assemble env
    ∧ (Asm.peek d).assemble env = (Asm.getsample d (.literal zeroParams) 0 0).assemble env
    ∧ (Asm.steal d e).assemble env = (Asm.transfer d e).assemble env
    ∧ (∀ line ∈ [fun r => Asm.init d r ol rs, fun r => Asm.keydown d r g, fun r => Asm.getsample d r n xr,
          fun r => Asm.update d r ol rs, Asm.noteon d, Asm.noteoff d, fun r => Asm.tick d r n],
        ∀ y z : String, y ≠ z →
          assembleProgram env [.params y p, .params z q, .op (line (.name y))]
            = assembleProgram env [.op (line (.literal p))]
          ∧ assembleProgram env [.params y q, .params y p, .op (line (.name y))]
            = assembleProgram env [.op (line (.literal p))]
          ∧ assembleProgram [] [.op (line (.name y))] = none)
    ∧ ∀ (a b : Asm) (c c' : Command), a.assemble env = some c → b.assemble env = some c' →
        assembleProgram env [.op a, .op b] = some [c, c']

/-! ## Steps -/

/-- A step runs the decoded command (00_scope R6, R24, 30_encoding R87): the event is taken, its operand ports
are latched, and the step is `exec` of the command. -/
def Obligations.StepRunsDecodedCommand : Prop :=
  ∀ (s : State) (c : Command) (rest : List HostEvent) (i : Instr),
    s.fault = .none → s.inbox = .command c :: rest → decode s.cfg.numInstances c.word = .ok i →
    step s = exec i { s with inbox := rest, ports := c.ports }

/-- 60_exceptions R206 a, R207: a refused word writes FAULT and changes nothing else (the event is taken). That
`exec` of a command on a unit that does not exist refuses it too, as the decoder does its word, is the model's
choice (log 11). -/
def Obligations.RefusalsWriteFaultAlone : Prop :=
  (∀ (s : State) (c : Command) (rest : List HostEvent) (x : RefusalReason),
    s.fault = .none → s.inbox = .command c :: rest → decode s.cfg.numInstances c.word = .error x →
    step s = .next { s with inbox := rest, fault := .refused x })
  ∧ ∀ (i : Instr) (s : State) (d : UnitNo), s.fault = .none → d ∈ i.units →
    s.cfg.numInstances ≤ d.toNat → exec i s = .next { s with fault := .refused .badUnit }

/-- 60_exceptions R208: a stopped block ignores every command, also overlapping ones and words that do not
decode; only reset leaves the stopped state. -/
def Obligations.StoppedBlockIgnores : Prop :=
  ∀ s : State, s.fault ≠ .none →
    (∀ (c : Command) (rest : List HostEvent), s.inbox = .command c :: rest →
      step s = .next { s with inbox := rest })
    ∧ (∀ (cs : List Command) (rest : List HostEvent), s.inbox = .overlap cs :: rest →
      step s = .next { s with inbox := rest })
    ∧ (∀ rest : List HostEvent, s.inbox = .reset :: rest → ∃ t, step s = .next t ∧ t.fault = .none)
    ∧ (s.inbox = [] → step s = .next s)
    ∧ ∀ i : Instr, exec i s = .next s

/-- 60_exceptions R208: along any run without a reset, a stopped block keeps all its state but the events it has
let pass. -/
def Obligations.StoppedRunKeepsState : Prop :=
  ∀ (k : Nat) (s : State), s.fault ≠ .none → HostEvent.reset ∉ s.inbox →
    runSteps k s = .next { s with inbox := s.inbox.drop k }

/-- 60_exceptions R218, 00_scope R7: with no event the block is idle. -/
def Obligations.IdleBlockKeepsState : Prop :=
  ∀ s : State, s.inbox = [] → step s = .next s

/-- 10_state R50, 70_reset_and_hazards R230: what reset leaves, as far as the spec gives values: every `valid`
is 0, CAL is 1 << 24, FAULT is NONE, RESULT is unwritten. The same for the reset event, also in a stopped block,
which keeps the configuration (MODE, the ROMs). -/
def Obligations.ResetLeavesSpecValues : Prop :=
  ((∀ d, (State.reset.unit d).valid = false) ∧ State.reset.cal = 16777216#32
    ∧ State.reset.fault = .none ∧ State.reset.readResult = .error .resultUnwritten)
  ∧ ∀ (s : State) (rest : List HostEvent), s.inbox = .reset :: rest →
    ∃ t, step s = .next t ∧ (∀ d, (t.unit d).valid = false) ∧ t.cal = 16777216#32 ∧ t.fault = .none
      ∧ t.readResult = .error .resultUnwritten ∧ t.cfg = s.cfg ∧ t.inbox = rest

/-- 20_memory R71, 60_exceptions R205: overlapping commands with a forbidden pair raise F_RACE: (a)
SET_SAMPLE_RATE with INIT, KEYDOWN, GETSAMPLE or UPDATE, (b) and (c) two commands that name one unit. That
F_RACE wins where another of the overlapping commands would be refused or would fault is the model's choice
(log 13, unsafe). -/
def Obligations.ForbiddenOverlapRaces : Prop :=
  ∀ (s : State) (cs : List Command) (rest : List HostEvent) (a b : Command) (i j : Instr),
    s.fault = .none → s.inbox = .overlap cs :: rest → [a, b].Sublist cs →
    decode s.cfg.numInstances a.word = .ok i → decode s.cfg.numInstances b.word = .ok j →
    MustNotOverlap i j →
    ∃ t, step s = .next t ∧ t.fault = .fault .race ∧ t.cfg = s.cfg ∧ t.inbox = rest

/-- 20_memory R69, R71: two overlapping commands that are no forbidden pair, which is every pair outside R71 (a),
(b) and (c), a refused word among them too, act as one after the other, in one of the two orders (the counter of
free values aside, which moves on before each; log 13). -/
def Obligations.AllowedOverlapIsSerial : Prop :=
  ∀ (s : State) (a b : Command) (rest : List HostEvent),
    s.fault = .none → s.inbox = .overlap [a, b] :: rest →
    (∀ i j, decode s.cfg.numInstances a.word = .ok i → decode s.cfg.numInstances b.word = .ok j →
      ¬ MustNotOverlap i j) →
    ∃ x y, ((x = a ∧ y = b) ∨ (x = b ∧ y = a)) ∧
      step s = andThen (present x { s with inbox := rest, freeCount := s.freeCount + 1 })
        fun t => present y { t with freeCount := t.freeCount + 1 }

/-- 20_memory R71, last sentence (the spec's own inference): two commands on distinct units, neither of them
SET_SAMPLE_RATE, leave the same units and CAL in either order, if one of the orders completes. -/
def Obligations.DistinctUnitsCommute : Prop :=
  ∀ (s t : State) (i j : Instr) (p q : Ports),
    i ≠ .setSampleRate → j ≠ .setSampleRate → (∀ d, d ∈ i.units → d ∉ j.units) →
    (andThen (exec i { s with ports := p }) fun r => exec j { r with ports := q }) = .next t →
    t.fault = .none →
    ∃ t', (andThen (exec j { s with ports := q }) fun r => exec i { r with ports := p }) = .next t'
      ∧ t'.fault = .none ∧ t'.units = t.units ∧ t'.cal = t.cal

/-- The model's own choice (log 2): every step answers a next state; the spec's faults and refusals are states
with FAULT written. -/
def Obligations.StepAlwaysAnswersNext : Prop :=
  (∀ (i : Instr) (s : State), ∃ t, exec i s = .next t) ∧ ∀ s : State, ∃ t, step s = .next t

/-! ## Invariants of every step -/

/-- 10_state R48 (I1 to I5, the spec's own inference): every step keeps the invariants of every valid unit. -/
def Obligations.StepKeepsUnitsGood : Prop :=
  ∀ s t : State, s.Good → step s = .next t → t.Good

/-- The state after reset has the invariants of 10_state R48 (which hold of it because no unit is valid). -/
def Obligations.ResetUnitsGood : Prop := State.reset.Good

/-- 10_state R43, 20_memory R61, R62, 00_scope R9: no step changes MODE, a ROM or another parameter. -/
def Obligations.StepKeepsConfiguration : Prop :=
  ∀ s t : State, step s = .next t → t.cfg = s.cfg

/-- 43_calibration R184: SET_SAMPLE_RATE is the only command that writes CAL; and (R183 e, the spec's own
inference) it touches no unit, whatever it answers. -/
def Obligations.CalHasOneWriter : Prop :=
  (∀ (i : Instr) (s t : State), i ≠ .setSampleRate → exec i s = .next t → t.cal = s.cal)
  ∧ ∀ s t : State, exec .setSampleRate s = .next t → ∀ d, t.unit d = s.unit d

/-- 40_envelope_ops R131: no command but TRANSFER touches a unit other than its own DST, whatever it answers,
and a TRANSFER that completes writes its destination alone (one that faults: 60_exceptions R206 b, log 3). -/
def Obligations.OnlyOwnUnitWritten : Prop :=
  (∀ (i : Instr) (s t : State) (e : UnitNo), (∀ a b, i ≠ .transfer a b) → e ∉ i.units →
    exec i s = .next t → t.unit e = s.unit e)
  ∧ ∀ (a b e : UnitNo) (s t : State), exec (.transfer a b) s = .next t → t.fault = .none → e ≠ a →
    t.unit e = s.unit e

/-- 40_envelope_ops R123 (the spec's own inference): of the commands that complete, only INIT, UPDATE and
TRANSFER change an `outputLevel` or a `rateScaling`; and (10_state R32, 40_envelope_ops R106) only INIT,
GETSAMPLE and TRANSFER a `level`. -/
def Obligations.VoiceFieldsHaveThreeWriters : Prop :=
  ∀ (i : Instr) (s t : State), exec i s = .next t → t.fault = .none →
    ((∀ d, i ≠ .init d) → (∀ d, i ≠ .update d) → (∀ d e, i ≠ .transfer d e) → ∀ e,
      (t.unit e).outputLevel = (s.unit e).outputLevel ∧ (t.unit e).rateScaling = (s.unit e).rateScaling)
    ∧ ((∀ d, i ≠ .init d) → (∀ d, i ≠ .getsample d) → (∀ d e, i ≠ .transfer d e) → ∀ e,
      (t.unit e).level = (s.unit e).level)

/-- 20_memory R66 (the spec's own inference): INIT, KEYDOWN, UPDATE, GETPOSITION, TRANSFER, SET_SAMPLE_RATE,
LEVEL_SCALE, and GETSAMPLE with n = 0, issued twice with the same operands, leave what issuing them once leaves.
-/
def Obligations.IdempotentCommands : Prop :=
  ∀ (i : Instr) (s t : State),
    (∀ d k xr, i ≠ .advance d k xr) → ((∃ d, i = .getsample d) → s.ports.n = 0#32) →
    exec i s = .next t → exec i t = .next t

/-- The named writes of a unit and of RESULT change nothing else (00_scope R22, R24): the frame that the
statements below rest on where they say `setUnit` and `writeResult`. -/
def Obligations.NamedWritesFrame : Prop :=
  ∀ (s : State) (d : UnitNo) (u : EnvUnit) (v : Word),
    (s.setUnit d u).unit d = u
    ∧ (∀ e, e ≠ d → (s.setUnit d u).unit e = s.unit e)
    ∧ s.setUnit d u = { s with units := (s.setUnit d u).units }
    ∧ s.writeResult v = { s with result := v, resultWritten := true }
    ∧ (s.writeResult v).readResult = .ok v

/-! ## Faults and refusals -/

/-- 60_exceptions R202: KEYDOWN, GETSAMPLE, UPDATE and GETPOSITION of a unit that is not valid, and TRANSFER
from one, raise F_UNINIT, leaving CAL and every unit the command does not name as they were; INIT does not test
`valid`, nor does TRANSFER test its destination's. -/
def Obligations.UninitialisedUnitFaults : Prop :=
  (∀ (s : State) (i : Instr) (d : UnitNo),
    s.fault = .none → i.wellFormed s.cfg.numInstances = true → (s.unit d).valid = false →
    ((∃ g, i = .keydown d g) ∨ i = .getsample d ∨ i = .update d ∨ i = .getposition d
      ∨ ∃ e, i = .transfer e d) →
    ∃ t, exec i s = .next t ∧ t.fault = .fault .uninit ∧ t.cal = s.cal ∧ t.cfg = s.cfg
      ∧ t.ports = s.ports ∧ t.inbox = s.inbox ∧ ∀ e, e ∉ i.units → t.unit e = s.unit e)
  ∧ (∀ (s t : State) (d : UnitNo),
    s.fault = .none → exec (.init d) s = .next t → t.fault ≠ .fault .uninit)
  ∧ ∀ (s t : State) (d e : UnitNo), s.fault = .none → (s.unit e).valid = true →
    exec (.transfer d e) s = .next t → t.fault ≠ .fault .uninit

/-- 60_exceptions R206: what a fault or a refusal raised by a command leaves: CAL, the configuration and every
unit the command does not name; a refusal changes FAULT alone; no single command raises F_RACE (R205). -/
def Obligations.RaisedFaultKeepsTheRest : Prop :=
  ∀ (i : Instr) (s t : State), s.fault = .none → exec i s = .next t → t.fault ≠ .none →
    t.cal = s.cal ∧ t.cfg = s.cfg ∧ t.ports = s.ports ∧ t.inbox = s.inbox
    ∧ (∀ e, e ∉ i.units → t.unit e = s.unit e)
    ∧ t.fault ≠ .fault .race
    ∧ ∀ x, t.fault = .refused x → t = { s with fault := .refused x }

/-- 60_exceptions R209 c (the spec's own inference), 41_advance R151, R145, R141, 44_accurate_timing R194: which
fault ADVANCE to an active phase raises, in the order of its tests. -/
def Obligations.AdvanceFaultOrder : Prop :=
  ∀ (s : State) (d : UnitNo) (k : Fin 5) (xr : Word),
    s.fault = .none → s.Exists d → k ≠ 4 →
    let sv := s.services d;
    let u := s.unit d;
    let r := rateParam s.ports.params k.val;
    let l := levelParam s.ports.params k.val;
    let b := phaseBlend sv k u;
    let raises := fun e => ∃ t, exec (.advance d k xr) s = .next t ∧ t.fault = .fault e;
    ((99 < r ∨ 99 < l) → raises .paramRange)
    ∧ (r ≤ 99 → l ≤ 99 → (b < -2147483648 ∨ 32767 < b) → raises .overflow)
    ∧ (r ≤ 99 → l ≤ 99 → -2147483648 ≤ b → b ≤ 32767 → phaseRateCode sv k xr.toInt u < 0 →
        raises .rateCode)
    ∧ (r ≤ 99 → l ≤ 99 → -2147483648 ≤ b → b ≤ 32767 → 0 ≤ phaseRateCode sv k xr.toInt u →
        holdsOnEntry sv k u →
        (phaseStaticCode sv k xr.toInt u < 0 ∨ 99 < phaseStaticCode sv k xr.toInt u) → raises .rateCode)
    ∧ (r ≤ 99 → l ≤ 99 → -2147483648 ≤ b → b ≤ 32767 → 0 ≤ phaseRateCode sv k xr.toInt u →
        holdsOnEntry sv k u →
        0 ≤ phaseStaticCode sv k xr.toInt u → phaseStaticCode sv k xr.toInt u ≤ 99 →
        2147483647 < holdSamples s.cfg s.cal (phaseStaticCode sv k xr.toInt u).toNat (zeroAttack sv k) →
        raises .overflow)

/-- 00_scope R26, 60_exceptions R209 b: a fault that ADVANCE raises inside INIT, KEYDOWN or UPDATE, inside
GETSAMPLE's hold expiry, or where GETSAMPLE's stepping reaches the target, is the command's fault; so is one that
the stepping after a hold expiry raises. -/
def Obligations.CallersPassOnAdvanceFaults : Prop :=
  ∀ (s : State) (d : UnitNo) (r : FaultReason), s.fault = .none → s.Exists d →
    let sv := s.services d;
    let u := s.unit d;
    let n := s.ports.n.toNat;
    let xr := s.ports.xr.toInt;
    let raises := fun i => ∃ t, exec i s = .next t ∧ t.fault = .fault r;
    (advance sv 0 0 { u with
        outputLevel := s.ports.ol, rateScaling := s.ports.rs, level := 0, gateDown := true,
        holdCount := 0, valid := true } = .error r → raises (.init d))
    ∧ (∀ g, u.valid = true → u.gateDown = !g →
      advance sv (if g then 0 else 3) 0 { u with gateDown := g } = .error r → raises (.keydown d g))
    ∧ (u.valid = true → u.gateDown = true →
      advance sv 2 0 { u with outputLevel := s.ports.ol, rateScaling := s.ports.rs } = .error r →
      raises (.update d))
    ∧ (u.valid = true → 0 < n → n < 2147483648 → s.mode d = .accurate → u.holdCount ≠ 0#32 →
      u.holdCount.toInt ≤ n → u.phaseIndex.toNat ≤ 3 →
      (advance sv (phaseAfter u) xr { u with holdCount := 0 } = .error r → raises (.getsample d))
      ∧ ∀ v, advance sv (phaseAfter u) xr { u with holdCount := 0 } = .ok v →
          stepLevel sv n xr v = .error r → raises (.getsample d))
    ∧ (u.valid = true → 0 < n → n < 2147483648 → inSteppingWindow s.cfg u = true → u.holdCount = 0#32 →
      ((u.rising = true ∧ ∃ c, riseStep s.cfg.riseStep u.level.toInt u.increment.toInt n = .ok c
          ∧ u.targetLevel.toInt ≤ c)
        ∨ (u.rising = false ∧ -2147483648 ≤ u.increment.toInt * n ∧ u.increment.toInt * n ≤ 2147483647
          ∧ u.level.toInt - u.increment.toInt * n ≤ u.targetLevel.toInt)) →
      advance sv (phaseAfter u) xr { u with level := u.targetLevel } = .error r → raises (.getsample d))

/-- 60_exceptions R204 b, c: GETSAMPLE with n >= 2^31, LEVEL_SCALE above 127, SET_SAMPLE_RATE of 0 or of a rate
whose calibration value is 2^32 or more raise F_OPERAND_RANGE, CAL keeping its value (R206 c); TRANSFER from a
valid unit to a unit of the other mode raises F_MODE_MISMATCH. -/
def Obligations.OperandAndModeFaults : Prop :=
  ∀ s : State, s.fault = .none →
    (∀ d, s.Exists d → (s.unit d).valid = true → 2147483648 ≤ s.ports.n.toNat →
      ∃ t, exec (.getsample d) s = .next t ∧ t.fault = .fault .operandRange)
    ∧ (127 < s.ports.lin.toNat →
      ∃ t, exec .levelScale s = .next t ∧ t.fault = .fault .operandRange)
    ∧ (s.ports.rate.toNat = 0 ∨ 4294967296 ≤ calOf s.cfg.calOf s.ports.rate.toNat →
      ∃ t, exec .setSampleRate s = .next t ∧ t.fault = .fault .operandRange ∧ t.cal = s.cal)
    ∧ (∀ d e, s.Exists d → s.Exists e → (s.unit e).valid = true → s.mode d ≠ s.mode e →
      ∃ t, exec (.transfer d e) s = .next t ∧ t.fault = .fault .modeMismatch)

/-- 60_exceptions R204 a, 40_envelope_ops R112, R114: a batch step whose product or sum leaves the signed 32-bit
range raises F_OVERFLOW (the rising part for the default RISE_STEP, log 8). -/
def Obligations.SteppingOverflows : Prop :=
  ∀ (s : State) (d : UnitNo) (n : Nat),
    s.fault = .none → s.Exists d → (s.unit d).valid = true → s.ports.n.toNat = n → 0 < n → n < 2147483648 →
    inSteppingWindow s.cfg (s.unit d) = true → (s.unit d).holdCount = 0#32 →
    ((s.unit d).rising = false →
      ((s.unit d).increment.toInt * n < -2147483648 ∨ 2147483647 < (s.unit d).increment.toInt * n) →
      ∃ t, exec (.getsample d) s = .next t ∧ t.fault = .fault .overflow)
    ∧ ((s.unit d).rising = true → s.cfg.riseStep = .reference →
      let l0 := max (s.unit d).level.toInt 112459776;
      let m := (285212672 - l0) / 16777216 * (s.unit d).increment.toInt * n;
      (m < -2147483648 ∨ 2147483647 < m ∨ l0 + m < -2147483648 ∨ 2147483647 < l0 + m) →
      ∃ t, exec (.getsample d) s = .next t ∧ t.fault = .fault .overflow)

/-- 60_exceptions R201: the value the host reads from FAULT for each reason, and for none. -/
def Obligations.FaultRegisterValues : Prop :=
  ∀ s : State, s.readFault ≤ 10 ∧ (s.readFault = 0 ↔ s.fault = .none)
    ∧ (s.readFault = 1 ↔ s.fault = .fault .uninit) ∧ (s.readFault = 2 ↔ s.fault = .fault .paramRange)
    ∧ (s.readFault = 3 ↔ s.fault = .fault .rateCode) ∧ (s.readFault = 4 ↔ s.fault = .fault .overflow)
    ∧ (s.readFault = 5 ↔ s.fault = .fault .operandRange)
    ∧ (s.readFault = 6 ↔ s.fault = .fault .modeMismatch) ∧ (s.readFault = 7 ↔ s.fault = .fault .race)
    ∧ (s.readFault = 8 ↔ s.fault = .refused .reservedOp)
    ∧ (s.readFault = 9 ↔ s.fault = .refused .reservedField)
    ∧ (s.readFault = 10 ↔ s.fault = .refused .badUnit)

/-! ## ADVANCE and the rate-to-slope engine -/

/-- 41_advance R140: ADVANCE to an active phase completes, and leaves the unit as the rules compute it. -/
def Obligations.AdvanceEntersPhase : Prop :=
  ∀ (s : State) (d : UnitNo) (k : Fin 5) (xr : Word),
    s.fault = .none → s.Exists d → k ≠ 4 → EntryRuns (s.services d) k xr.toInt (s.unit d) →
    exec (.advance d k xr) s = .next (s.setUnit d (entered (s.services d) k xr.toInt (s.unit d)))

/-- 41_advance R150: ADVANCE to IDLE writes only `phaseIndex`, whatever the parameters. -/
def Obligations.AdvanceToIdle : Prop :=
  ∀ (s : State) (d : UnitNo) (xr : Word), s.fault = .none → s.Exists d →
    exec (.advance d 4 xr) s = .next (s.setUnit d { s.unit d with phaseIndex := 4 })

/-- 41_advance R146, R148: the increment of a rate code in 0..63, its range, and the exact halving at twice the
reference rate. -/
def Obligations.IncrementOfRateCode : Prop :=
  ∀ q : Nat, q ≤ 63 →
    incRef q = (4 + q % 4) * 2 ^ (2 + q / 4) ∧ 16 ≤ incRef q ∧ incRef q ≤ 917504
    ∧ (∀ cal : Word, inc cal q = incRef q * cal.toNat / 2 ^ 24 ∧ inc cal q < 2 ^ 28)
    ∧ inc 16777216#32 q = incRef q ∧ 2 * inc 8388608#32 q = incRef q

/-- 41_advance R145: the rate code is clamped to 63, and one below 0 is F_RATE_CODE. The defaults, which the spec
takes from general knowledge (log 8, PRESUMED): RATE_CODE (R144), which maps 0..99 into 0..63, and STATIC_CODE
(44_accurate_timing R192), which does not use the extra rate. -/
def Obligations.RateCodeClamped : Prop :=
  (∀ q : Int, (q < 0 → clampRate q = .error .rateCode) ∧ (0 ≤ q → q ≤ 63 → clampRate q = .ok q.toNat)
    ∧ (63 < q → clampRate q = .ok 63))
  ∧ (∀ r rs xr : Int, rateCode .reference r rs xr = r * 41 / 64 + rs + xr)
  ∧ (∀ r : Int, 0 ≤ r → r ≤ 99 → 0 ≤ rateCode .reference r 0 0 ∧ rateCode .reference r 0 0 ≤ 63)
  ∧ ∀ r rs xr : Int, staticCode .reference r rs xr = min (r + rs) 99

/-! ## INIT -/

/-- 40_envelope_ops R100 and the spec's inferences R101, R103: INIT completes, writes every field of its unit
and nothing else, and ends in phase 0 at level 0 with the gate held. -/
def Obligations.InitStartsAttack : Prop :=
  ∀ (s : State) (d : UnitNo), s.fault = .none → s.Exists d →
    let u : EnvUnit := { s.unit d with
      outputLevel := s.ports.ol, rateScaling := s.ports.rs, level := 0, gateDown := true,
      holdCount := 0, valid := true };
    EntryRuns (s.services d) 0 0 u →
    exec (.init d) s = .next (s.setUnit d (entered (s.services d) 0 0 u))
    ∧ (entered (s.services d) 0 0 u).phaseIndex = 0 ∧ (entered (s.services d) 0 0 u).level = 0
    ∧ (entered (s.services d) 0 0 u).gateDown = true ∧ (entered (s.services d) 0 0 u).valid = true

/-- 40_envelope_ops R102: INIT with the same operands, MODE and CAL (and parameters) leaves the same unit
whatever the unit held before, and faults the same (R102 is the spec's own inference from R100). -/
def Obligations.InitForgetsOldUnit : Prop :=
  ∀ (s s' t t' : State) (d : UnitNo),
    s.fault = .none → s'.fault = .none → s.cfg = s'.cfg → s.cal = s'.cal → s.ports = s'.ports →
    exec (.init d) s = .next t → exec (.init d) s' = .next t' →
    t.fault = t'.fault ∧ (t.fault = .none → t.unit d = t'.unit d)

/-! ## KEYDOWN -/

/-- 40_envelope_ops R104: KEYDOWN with a changed gate stores it and enters phase 0 (note-on) or 3 (note-off). -/
def Obligations.KeydownEntersPhase : Prop :=
  ∀ (s : State) (d : UnitNo) (g : Bool), s.fault = .none → s.Exists d → (s.unit d).valid = true →
    (s.unit d).gateDown = !g →
    EntryRuns (s.services d) (if g then 0 else 3) 0 { s.unit d with gateDown := g } →
    exec (.keydown d g) s = .next
      (s.setUnit d (entered (s.services d) (if g then 0 else 3) 0 { s.unit d with gateDown := g }))

/-- 40_envelope_ops R105: KEYDOWN with a gate equal to `gateDown` changes no state. -/
def Obligations.KeydownSameGateIsNoop : Prop :=
  ∀ (s : State) (d : UnitNo), s.fault = .none → s.Exists d → (s.unit d).valid = true →
    exec (.keydown d (s.unit d).gateDown) s = .next s

/-! ## GETSAMPLE -/

/-- 40_envelope_ops R111: GETSAMPLE with n = 0 writes RESULT with the level and changes nothing else, whatever
the parameters and XR. -/
def Obligations.GetsampleOfNoSamples : Prop :=
  ∀ (s : State) (d : UnitNo), s.fault = .none → s.Exists d → (s.unit d).valid = true →
    s.ports.n = 0#32 → exec (.getsample d) s = .next (s.writeResult (s.unit d).level)

/-- 40_envelope_ops R109, R117 b, c: in IDLE, and in phase 3 with the gate held, with no hold running, the level
is frozen: RESULT is written and nothing else, whatever the parameters. -/
def Obligations.GetsampleFrozen : Prop :=
  ∀ (s : State) (d : UnitNo), s.fault = .none → s.Exists d → (s.unit d).valid = true →
    s.ports.n.toNat < 2147483648 → (s.mode d = .standard ∨ (s.unit d).holdCount = 0#32) →
    ((s.unit d).phaseIndex = 4#3 ∨
      ((s.unit d).phaseIndex = 3#3 ∧ (s.unit d).gateDown = true ∧ s.cfg.ph3HeldSteps = false)) →
    exec (.getsample d) s = .next (s.writeResult (s.unit d).level)

/-- 40_envelope_ops R110: while the hold outlasts the samples, GETSAMPLE counts it down and the level stands
still, whatever the phase and the gate. -/
def Obligations.GetsampleCountsHold : Prop :=
  ∀ (s : State) (d : UnitNo), s.fault = .none → s.Exists d → (s.unit d).valid = true →
    s.mode d = .accurate → 0 < s.ports.n.toNat → (s.ports.n.toNat : Int) < (s.unit d).holdCount.toInt →
    exec (.getsample d) s = .next
      ((s.setUnit d { s.unit d with
        holdCount := BitVec.ofInt 32 ((s.unit d).holdCount.toInt - s.ports.n.toNat) }).writeResult
        (s.unit d).level)

/-- 40_envelope_ops R110: when the hold expires, the phase ends, and the whole n then steps the phase entered.
-/
def Obligations.GetsampleHoldExpires : Prop :=
  ∀ (s : State) (d : UnitNo) (w : EnvUnit), s.fault = .none → s.Exists d → (s.unit d).valid = true →
    s.mode d = .accurate → 0 < (s.unit d).holdCount.toInt →
    (s.unit d).holdCount.toInt ≤ s.ports.n.toNat → s.ports.n.toNat < 2147483648 →
    ChainRuns (s.services d) s.ports.xr.toInt { s.unit d with holdCount := 0 } →
    stepLevel (s.services d) s.ports.n.toNat s.ports.xr.toInt
      (chained (s.services d) s.ports.xr.toInt { s.unit d with holdCount := 0 }) = .ok w →
    exec (.getsample d) s = .next ((s.setUnit d w).writeResult w.level)

/-- 40_envelope_ops R112, R114: a step whose candidate has not reached the target stores the candidate: rising,
`RISE_STEP`'s; falling, `level - increment * n`. -/
def Obligations.GetsampleMovesLevel : Prop :=
  ∀ (s : State) (d : UnitNo) (c : Int), s.fault = .none → s.Exists d → (s.unit d).valid = true →
    0 < s.ports.n.toNat → s.ports.n.toNat < 2147483648 →
    inSteppingWindow s.cfg (s.unit d) = true → (s.unit d).holdCount = 0#32 →
    (((s.unit d).rising = true
        ∧ riseStep s.cfg.riseStep (s.unit d).level.toInt (s.unit d).increment.toInt s.ports.n.toNat = .ok c
        ∧ c < (s.unit d).targetLevel.toInt)
      ∨ ((s.unit d).rising = false
        ∧ -2147483648 ≤ (s.unit d).increment.toInt * s.ports.n.toNat
        ∧ (s.unit d).increment.toInt * s.ports.n.toNat ≤ 2147483647
        ∧ c = (s.unit d).level.toInt - (s.unit d).increment.toInt * s.ports.n.toNat
        ∧ (s.unit d).targetLevel.toInt < c)) →
    exec (.getsample d) s = .next
      ((s.setUnit d { s.unit d with level := BitVec.ofInt 32 c }).writeResult (BitVec.ofInt 32 c))

/-- 40_envelope_ops R113: a step that reaches or crosses the target clamps the level there and enters the next
phase in the same command; the excess is not carried on. -/
def Obligations.GetsampleReachesTarget : Prop :=
  ∀ (s : State) (d : UnitNo), s.fault = .none → s.Exists d → (s.unit d).valid = true →
    0 < s.ports.n.toNat → s.ports.n.toNat < 2147483648 →
    inSteppingWindow s.cfg (s.unit d) = true → (s.unit d).holdCount = 0#32 →
    (((s.unit d).rising = true ∧ ∃ c,
        riseStep s.cfg.riseStep (s.unit d).level.toInt (s.unit d).increment.toInt s.ports.n.toNat = .ok c
        ∧ (s.unit d).targetLevel.toInt ≤ c)
      ∨ ((s.unit d).rising = false
        ∧ -2147483648 ≤ (s.unit d).increment.toInt * s.ports.n.toNat
        ∧ (s.unit d).increment.toInt * s.ports.n.toNat ≤ 2147483647
        ∧ (s.unit d).level.toInt - (s.unit d).increment.toInt * s.ports.n.toNat
            ≤ (s.unit d).targetLevel.toInt)) →
    ChainRuns (s.services d) s.ports.xr.toInt { s.unit d with level := (s.unit d).targetLevel } →
    exec (.getsample d) s = .next
      ((s.setUnit d (chained (s.services d) s.ports.xr.toInt
        { s.unit d with level := (s.unit d).targetLevel })).writeResult (s.unit d).targetLevel)

/-- 40_envelope_ops R109: the stepping window, with PH3_HELD_STEPS false (phases 0 to 2, and 3 with the gate
released) and true (phases 0 to 3 whatever the gate). -/
def Obligations.SteppingWindow : Prop :=
  ∀ (cfg : Config) (u : EnvUnit),
    (cfg.ph3HeldSteps = false → (inSteppingWindow cfg u = true ↔
      u.phaseIndex = 0#3 ∨ u.phaseIndex = 1#3 ∨ u.phaseIndex = 2#3
        ∨ (u.phaseIndex = 3#3 ∧ u.gateDown = false)))
    ∧ (cfg.ph3HeldSteps = true → (inSteppingWindow cfg u = true ↔
      u.phaseIndex = 0#3 ∨ u.phaseIndex = 1#3 ∨ u.phaseIndex = 2#3 ∨ u.phaseIndex = 3#3))

/-- 40_envelope_ops R112: the two instantiations of RISE_STEP that the spec writes out (the default is its
general-knowledge one, log 8). -/
def Obligations.RiseStepFormulas : Prop :=
  ∀ level inc n : Int,
    (let l0 := max level 112459776;
     let m := (285212672 - l0) / 16777216 * inc * n;
     -2147483648 ≤ m → m ≤ 2147483647 → -2147483648 ≤ l0 + m → l0 + m ≤ 2147483647 →
     riseStep .reference level inc n = .ok (l0 + m))
    ∧ (-2147483648 ≤ inc * n → inc * n ≤ 2147483647 →
       -2147483648 ≤ level + inc * n → level + inc * n ≤ 2147483647 →
       riseStep .plain level inc n = .ok (level + inc * n))

/-- 40_envelope_ops R119, 10_state R48 (I6), both the spec's own inference: while its phase goes on, a GETSAMPLE
never moves the level away from the target: rising it does not fall below the old level (where RISE_STEP does
not) and stays below the target, falling it does not rise. The default RISE_STEP does not fall for a level of at
most 17 << 24. -/
def Obligations.LevelMonotoneInPhase : Prop :=
  (∀ (s t : State) (d : UnitNo), s.fault = .none → s.Good → (s.unit d).valid = true →
    (s.unit d).holdCount = 0#32 → exec (.getsample d) s = .next t → t.fault = .none →
    (t.unit d).phaseIndex = (s.unit d).phaseIndex → (t.unit d).level ≠ (s.unit d).level →
    ((s.unit d).rising = true →
      (t.unit d).level.toInt < (s.unit d).targetLevel.toInt
      ∧ ((∀ c, riseStep s.cfg.riseStep (s.unit d).level.toInt (s.unit d).increment.toInt s.ports.n.toNat
            = .ok c → (s.unit d).level.toInt ≤ c) →
          (s.unit d).level.toInt ≤ (t.unit d).level.toInt))
    ∧ ((s.unit d).rising = false →
      (s.unit d).targetLevel.toInt < (t.unit d).level.toInt
      ∧ (t.unit d).level.toInt ≤ (s.unit d).level.toInt))
  ∧ ∀ level inc n c : Int, 0 ≤ inc → 0 ≤ n → level ≤ 285212672 →
      riseStep .reference level inc n = .ok c → level ≤ c

/-- 40_envelope_ops R115, 70_reset_and_hazards R244: one GETSAMPLE that completes moves `phaseIndex` forward by
at most two, by at most one in a STANDARD unit, and never back (the spec's own inference and decision). -/
def Obligations.GetsamplePhaseBound : Prop :=
  ∀ (s t : State) (d : UnitNo), s.fault = .none → s.Exists d → exec (.getsample d) s = .next t →
    t.fault = .none → (s.unit d).phaseIndex.toNat ≤ 4 →
    (s.unit d).phaseIndex.toNat ≤ (t.unit d).phaseIndex.toNat
    ∧ (t.unit d).phaseIndex.toNat ≤ (s.unit d).phaseIndex.toNat + 2
    ∧ (s.mode d = .standard → (t.unit d).phaseIndex.toNat ≤ (s.unit d).phaseIndex.toNat + 1)
    ∧ (t.unit d).phaseIndex.toNat ≤ 4
    ∧ (t.unit d).gateDown = (s.unit d).gateDown ∧ (t.unit d).valid = true
    ∧ t.readResult = .ok (t.unit d).level

/-- 70_reset_and_hazards R237 (the spec's own inference): blocks of at most 110 samples do not overflow at 22050
Hz and above, for a level of at most 17 << 24 with the default RISE_STEP (log 8). -/
def Obligations.SmallBlocksDoNotOverflow : Prop :=
  (∀ (cal : Word) (q : Nat), cal.toNat ≤ 33554432 → q ≤ 63 → inc cal q ≤ 1835008)
  ∧ ∀ level inc n : Int, level ≤ 285212672 → 0 ≤ inc → inc ≤ 1835008 → 0 ≤ n → n ≤ 110 →
    (∃ c, riseStep .reference level inc n = .ok c) ∧ chk32 (inc * n) = .ok (inc * n)

/-! ## UPDATE, GETPOSITION, TRANSFER -/

/-- 40_envelope_ops R120: UPDATE with the gate held stores OL and RS and enters phase 2 from any phase, keeping
the level. -/
def Obligations.UpdateEntersSustain : Prop :=
  ∀ (s : State) (d : UnitNo), s.fault = .none → s.Exists d → (s.unit d).valid = true →
    (s.unit d).gateDown = true →
    let u : EnvUnit := { s.unit d with outputLevel := s.ports.ol, rateScaling := s.ports.rs };
    EntryRuns (s.services d) 2 0 u →
    exec (.update d) s = .next (s.setUnit d (entered (s.services d) 2 0 u))
    ∧ (entered (s.services d) 2 0 u).level = (s.unit d).level

/-- 40_envelope_ops R121: UPDATE with the gate released changes no state. -/
def Obligations.UpdateReleasedIsNoop : Prop :=
  ∀ (s : State) (d : UnitNo), s.fault = .none → s.Exists d → (s.unit d).valid = true →
    (s.unit d).gateDown = false → exec (.update d) s = .next s

/-- 40_envelope_ops R124, R125, R126: GETPOSITION writes RESULT with the phase index, zero-extended, and nothing
else, whatever the ports. -/
def Obligations.GetpositionReadsPhase : Prop :=
  ∀ (s : State) (d : UnitNo), s.fault = .none → s.Exists d → (s.unit d).valid = true →
    exec (.getposition d) s = .next (s.writeResult (BitVec.ofNat 32 (s.unit d).phaseIndex.toNat))

/-- 40_envelope_ops R127: TRANSFER copies every field of the source unit and changes nothing else. -/
def Obligations.TransferCopiesUnit : Prop :=
  ∀ (s : State) (d e : UnitNo), s.fault = .none → s.Exists d → s.Exists e → (s.unit e).valid = true →
    s.mode d = s.mode e → exec (.transfer d e) s = .next (s.setUnit d (s.unit e))

/-- 40_envelope_ops R129 (the spec's own inference): after TRANSFER, every sequence of GETSAMPLE, KEYDOWN and
UPDATE commands drives the destination as it would have driven the source: both runs answer, with the same
FAULT, and while there is none, the same unit, CAL and RESULT. -/
def Obligations.TransferKeepsTrajectory : Prop :=
  ∀ (s t : State) (a b : UnitNo) (cs : List Drive),
    s.fault = .none → exec (.transfer b a) s = .next t → t.fault = .none →
    ∃ x y, drive a cs s = .next x ∧ drive b cs t = .next y ∧ y.fault = x.fault
      ∧ (x.fault = .none → y.unit b = x.unit a ∧ y.cal = x.cal ∧ y.readResult = x.readResult)

/-! ## SET_SAMPLE_RATE and LEVEL_SCALE -/

/-- 43_calibration R181: SET_SAMPLE_RATE writes CAL with the exact floor and changes nothing else, for every
rate from 173 Hz up (below, R181's fault); with another rounding (R182) it writes that one, which is 2^24 at
44100 Hz and 2^23 at 88200 Hz. -/
def Obligations.SetSampleRateWritesCal : Prop :=
  (∀ s : State, s.fault = .none → s.cfg.calOf = .floor → 173 ≤ s.ports.rate.toNat →
    exec .setSampleRate s = .next { s with
      cal := BitVec.ofNat 32 (44100 * 2 ^ 24 / s.ports.rate.toNat) })
  ∧ (∀ rate : Nat, rate ≠ 0 → (4294967296 ≤ calOf .floor rate ↔ rate ≤ 172))
  ∧ (∀ (s : State) (k : Nat), s.fault = .none → s.cfg.calOf = .other k → s.ports.rate.toNat ≠ 0 →
    calOf (.other k) s.ports.rate.toNat < 4294967296 →
    exec .setSampleRate s = .next { s with
      cal := BitVec.ofNat 32 (calOf (.other k) s.ports.rate.toNat) })
  ∧ ∀ rule : CalRule, calOf rule 44100 = 16777216 ∧ calOf rule 88200 = 8388608

/-- 42_level_scaling R171, R170: LEVEL_SCALE writes RESULT with the table entry or `28 + x`, and nothing else.
-/
def Obligations.LevelScaleWritesResult : Prop :=
  ∀ s : State, s.fault = .none → s.ports.lin.toNat ≤ 127 →
    (∀ h : s.ports.lin.toNat < 20,
      exec .levelScale s = .next (s.writeResult (BitVec.ofNat 32 s.cfg.levelLut[s.ports.lin.toNat])))
    ∧ (20 ≤ s.ports.lin.toNat →
      exec .levelScale s = .next (s.writeResult (28#32 + s.ports.lin)))

/-- 42_level_scaling R173: the boundary values, for every legal table. -/
def Obligations.LevelScaleBoundaries : Prop :=
  ∀ cfg : Config, cfg.legal = true →
    levelScale cfg 0 = 0 ∧ levelScale cfg 19 = 46 ∧ levelScale cfg 20 = 48 ∧ levelScale cfg 127 = 155

/-- 42_level_scaling R174 (the spec's own inference): LEVEL_SCALE is increasing on 0..127 for every legal table,
with range 0..155, and 0..127 for inputs up to 99, so that the blend's table part is in 0..4032. -/
def Obligations.LevelScaleIncreasing : Prop :=
  ∀ cfg : Config, cfg.legal = true →
    (∀ x y : Nat, x < y → y ≤ 127 → levelScale cfg x < levelScale cfg y)
    ∧ (∀ x : Nat, x ≤ 127 → levelScale cfg x ≤ 155)
    ∧ ∀ x : Nat, x ≤ 99 → levelScale cfg x ≤ 127 ∧ (levelScale cfg x >>> 1) <<< 6 ≤ 4032
end

