-- ==== Sys2Proof/Laws/State.lean ====
section
/-! SUPPORT. One lemma per field per update of the state, so that no later proof unfolds an update; and what
reading a unit gives after each of them. -/

namespace Sys2Proof.Machine

variable (s : State) (d e : UnitNo) (u : EnvUnit) (v : Word) (ds : List UnitNo)

/-! ### Writing a unit -/

@[simp] theorem unit_setUnit_self : (s.setUnit d u).unit d = u := by
  simp [State.unit, State.setUnit]

theorem unit_setUnit_ne (h : e ≠ d) : (s.setUnit d u).unit e = s.unit e := by
  have hne : d.toNat ≠ e.toNat := fun hc => h (BitVec.eq_of_toNat_eq hc.symm)
  simp [State.unit, State.setUnit, Vector.getElem_set_ne, hne]

theorem unit_setUnit : (s.setUnit d u).unit e = if e = d then u else s.unit e := by
  by_cases h : e = d
  · subst h; simp
  · simp [h, unit_setUnit_ne]

@[simp] theorem setUnit_unit : s.setUnit d (s.unit d) = s := by
  simp [State.setUnit, State.unit]

@[simp] theorem setUnit_setUnit (w : EnvUnit) : (s.setUnit d u).setUnit d w = s.setUnit d w := by
  simp [State.setUnit]

@[simp] theorem setUnit_cfg : (s.setUnit d u).cfg = s.cfg := rfl
@[simp] theorem setUnit_cal : (s.setUnit d u).cal = s.cal := rfl
@[simp] theorem setUnit_fault : (s.setUnit d u).fault = s.fault := rfl
@[simp] theorem setUnit_result : (s.setUnit d u).result = s.result := rfl
@[simp] theorem setUnit_resultWritten : (s.setUnit d u).resultWritten = s.resultWritten := rfl
@[simp] theorem setUnit_ports : (s.setUnit d u).ports = s.ports := rfl
@[simp] theorem setUnit_inbox : (s.setUnit d u).inbox = s.inbox := rfl
@[simp] theorem setUnit_freeCount : (s.setUnit d u).freeCount = s.freeCount := rfl
@[simp] theorem setUnit_mode : (s.setUnit d u).mode e = s.mode e := rfl
@[simp] theorem setUnit_services : (s.setUnit d u).services e = s.services e := rfl

/-! ### Writing RESULT and CAL -/

@[simp] theorem writeResult_unit : (s.writeResult v).unit d = s.unit d := rfl
@[simp] theorem writeResult_units : (s.writeResult v).units = s.units := rfl
@[simp] theorem writeResult_cfg : (s.writeResult v).cfg = s.cfg := rfl
@[simp] theorem writeResult_cal : (s.writeResult v).cal = s.cal := rfl
@[simp] theorem writeResult_fault : (s.writeResult v).fault = s.fault := rfl
@[simp] theorem writeResult_result : (s.writeResult v).result = v := rfl
@[simp] theorem writeResult_resultWritten : (s.writeResult v).resultWritten = true := rfl
@[simp] theorem writeResult_ports : (s.writeResult v).ports = s.ports := rfl
@[simp] theorem writeResult_inbox : (s.writeResult v).inbox = s.inbox := rfl
@[simp] theorem writeResult_freeCount : (s.writeResult v).freeCount = s.freeCount := rfl
@[simp] theorem writeResult_mode : (s.writeResult v).mode d = s.mode d := rfl
@[simp] theorem writeResult_services : (s.writeResult v).services d = s.services d := rfl
@[simp] theorem readResult_writeResult : (s.writeResult v).readResult = .ok v := rfl

@[simp] theorem setCal_unit : (s.setCal v).unit d = s.unit d := rfl
@[simp] theorem setCal_units : (s.setCal v).units = s.units := rfl
@[simp] theorem setCal_cfg : (s.setCal v).cfg = s.cfg := rfl
@[simp] theorem setCal_cal : (s.setCal v).cal = v := rfl
@[simp] theorem setCal_fault : (s.setCal v).fault = s.fault := rfl
@[simp] theorem setCal_result : (s.setCal v).result = s.result := rfl
@[simp] theorem setCal_resultWritten : (s.setCal v).resultWritten = s.resultWritten := rfl
@[simp] theorem setCal_ports : (s.setCal v).ports = s.ports := rfl
@[simp] theorem setCal_inbox : (s.setCal v).inbox = s.inbox := rfl
@[simp] theorem setCal_freeCount : (s.setCal v).freeCount = s.freeCount := rfl
@[simp] theorem setCal_mode : (s.setCal v).mode d = s.mode d := rfl

/-! ### Latching ports, taking an event, counting a free value -/

@[simp] theorem ports_unit (p : Ports) : ({ s with ports := p } : State).unit d = s.unit d := rfl
@[simp] theorem ports_mode (p : Ports) : ({ s with ports := p } : State).mode d = s.mode d := rfl
@[simp] theorem inbox_unit (l : List HostEvent) : ({ s with inbox := l } : State).unit d = s.unit d := rfl
@[simp] theorem inbox_mode (l : List HostEvent) : ({ s with inbox := l } : State).mode d = s.mode d := rfl
@[simp] theorem freeCount_unit (n : Nat) : ({ s with freeCount := n } : State).unit d = s.unit d := rfl
@[simp] theorem freeCount_mode (n : Nat) : ({ s with freeCount := n } : State).mode d = s.mode d := rfl

/-! ### The services a unit reads -/

@[simp] theorem services_cfg : (s.services d).cfg = s.cfg := rfl
@[simp] theorem services_mode : (s.services d).mode = s.mode d := rfl
@[simp] theorem services_cal : (s.services d).cal = s.cal := rfl
@[simp] theorem services_params : (s.services d).params = s.ports.params := rfl

/-! ### Free values -/

theorem freeUnits_cons : s.freeUnits (d :: ds)
    = ds.foldl (fun t x => t.setUnit x (freeUnit s.freeCount x)) (s.setUnit d (freeUnit s.freeCount d)) :=
  rfl

/-- Freeing units writes units and nothing else. -/
theorem foldl_setUnit_units (f : UnitNo → EnvUnit) (l : List UnitNo) (t : State) :
    ∃ us, l.foldl (fun t x => t.setUnit x (f x)) t = { t with units := us } := by
  induction l generalizing t with
  | nil => exact ⟨t.units, rfl⟩
  | cons x xs ih =>
    obtain ⟨us, h⟩ := ih (t.setUnit x (f x))
    exact ⟨us, by simpa [State.setUnit] using h⟩

theorem freeUnits_units : ∃ us, s.freeUnits ds = { s with units := us } :=
  foldl_setUnit_units _ ds s

theorem foldl_setUnit_unit (f : UnitNo → EnvUnit) (l : List UnitNo) (t : State) :
    (l.foldl (fun t x => t.setUnit x (f x)) t).unit d = if d ∈ l then f d else t.unit d := by
  induction l generalizing t with
  | nil => simp
  | cons x xs ih =>
    by_cases hx : d ∈ xs
    · simp [ih, hx]
    · by_cases hd : d = x
      · subst hd; simp [ih, hx]
      · simp [ih, hx, hd, unit_setUnit_ne]

/-- The freed units hold the free values, every other unit is as before. -/
theorem freeUnits_unit :
    (s.freeUnits ds).unit d = if d ∈ ds then freeUnit s.freeCount d else s.unit d :=
  foldl_setUnit_unit d _ ds s

@[simp] theorem freeUnits_cfg : (s.freeUnits ds).cfg = s.cfg := by
  obtain ⟨us, h⟩ := freeUnits_units s ds; simp [h]
@[simp] theorem freeUnits_cal : (s.freeUnits ds).cal = s.cal := by
  obtain ⟨us, h⟩ := freeUnits_units s ds; simp [h]
@[simp] theorem freeUnits_fault : (s.freeUnits ds).fault = s.fault := by
  obtain ⟨us, h⟩ := freeUnits_units s ds; simp [h]
@[simp] theorem freeUnits_ports : (s.freeUnits ds).ports = s.ports := by
  obtain ⟨us, h⟩ := freeUnits_units s ds; simp [h]
@[simp] theorem freeUnits_inbox : (s.freeUnits ds).inbox = s.inbox := by
  obtain ⟨us, h⟩ := freeUnits_units s ds; simp [h]
@[simp] theorem freeUnits_freeCount : (s.freeUnits ds).freeCount = s.freeCount := by
  obtain ⟨us, h⟩ := freeUnits_units s ds; simp [h]
@[simp] theorem freeUnits_resultWritten : (s.freeUnits ds).resultWritten = s.resultWritten := by
  obtain ⟨us, h⟩ := freeUnits_units s ds; simp [h]

@[simp] theorem freeResult_unit : s.freeResult.unit d = s.unit d := rfl
@[simp] theorem freeResult_cfg : s.freeResult.cfg = s.cfg := rfl
@[simp] theorem freeResult_cal : s.freeResult.cal = s.cal := rfl
@[simp] theorem freeResult_ports : s.freeResult.ports = s.ports := rfl
@[simp] theorem freeResult_inbox : s.freeResult.inbox = s.inbox := rfl

/-! ### Taking a fault, a refusal, a race, a reset -/

variable (r : FaultReason) (x : RefusalReason)

@[simp] theorem latch_none (new : Status) : Status.none.latch new = new := rfl

theorem latch_set (old new : Status) (h : old ≠ .none) : old.latch new = old := by
  cases old <;> simp_all [Status.latch]

theorem latch_ne_none (old new : Status) (h : new ≠ .none) : old.latch new ≠ .none := by
  cases old <;> simp_all [Status.latch]

theorem takeFault_unit : (s.takeFault ds r).unit d
    = if d ∈ ds then freeUnit s.freeCount d else s.unit d := freeUnits_unit s d ds

@[simp] theorem takeFault_cfg : (s.takeFault ds r).cfg = s.cfg := by simp [State.takeFault]
@[simp] theorem takeFault_cal : (s.takeFault ds r).cal = s.cal := by simp [State.takeFault]
@[simp] theorem takeFault_fault : (s.takeFault ds r).fault = s.fault.latch (.fault r) := rfl
@[simp] theorem takeFault_ports : (s.takeFault ds r).ports = s.ports := by simp [State.takeFault]
@[simp] theorem takeFault_inbox : (s.takeFault ds r).inbox = s.inbox := by simp [State.takeFault]
@[simp] theorem takeFault_freeCount : (s.takeFault ds r).freeCount = s.freeCount + 1 := rfl
@[simp] theorem takeFault_mode : (s.takeFault ds r).mode d = s.mode d := by simp [State.mode]

@[simp] theorem takeRefusal_unit : (s.takeRefusal x).unit d = s.unit d := rfl
@[simp] theorem takeRefusal_units : (s.takeRefusal x).units = s.units := rfl
@[simp] theorem takeRefusal_cfg : (s.takeRefusal x).cfg = s.cfg := rfl
@[simp] theorem takeRefusal_cal : (s.takeRefusal x).cal = s.cal := rfl
@[simp] theorem takeRefusal_fault : (s.takeRefusal x).fault = s.fault.latch (.refused x) := rfl
@[simp] theorem takeRefusal_result : (s.takeRefusal x).result = s.result := rfl
@[simp] theorem takeRefusal_resultWritten : (s.takeRefusal x).resultWritten = s.resultWritten := rfl
@[simp] theorem takeRefusal_ports : (s.takeRefusal x).ports = s.ports := rfl
@[simp] theorem takeRefusal_inbox : (s.takeRefusal x).inbox = s.inbox := rfl
@[simp] theorem takeRefusal_freeCount : (s.takeRefusal x).freeCount = s.freeCount := rfl
@[simp] theorem takeRefusal_mode : (s.takeRefusal x).mode d = s.mode d := rfl

@[simp] theorem takeRace_cfg : s.takeRace.cfg = s.cfg := by simp [State.takeRace]
@[simp] theorem takeRace_fault : s.takeRace.fault = s.fault.latch (.fault .race) := rfl
@[simp] theorem takeRace_ports : s.takeRace.ports = s.ports := by simp [State.takeRace]
@[simp] theorem takeRace_inbox : s.takeRace.inbox = s.inbox := by simp [State.takeRace]
@[simp] theorem takeRace_freeCount : s.takeRace.freeCount = s.freeCount + 1 := rfl
@[simp] theorem takeRace_mode : s.takeRace.mode d = s.mode d := by simp [State.mode]

theorem takeRace_unit : s.takeRace.unit d
    = if d.toNat < s.cfg.numInstances then freeUnit s.freeCount d else s.unit d := by
  simp [State.unit, State.takeRace, State.freeBank]

@[simp] theorem hardReset_cfg : s.hardReset.cfg = s.cfg := by
  simp [State.hardReset, State.reset]
@[simp] theorem hardReset_cal : s.hardReset.cal = 0x01000000#32 := by
  simp [State.hardReset, State.reset]
@[simp] theorem hardReset_fault : s.hardReset.fault = .none := by
  simp [State.hardReset, State.reset]
@[simp] theorem hardReset_resultWritten : s.hardReset.resultWritten = false := by
  simp [State.hardReset, State.reset]
@[simp] theorem hardReset_ports : s.hardReset.ports = s.ports := by
  simp [State.hardReset, State.reset]
@[simp] theorem hardReset_inbox : s.hardReset.inbox = s.inbox := by
  simp [State.hardReset, State.reset]
@[simp] theorem hardReset_freeCount : s.hardReset.freeCount = s.freeCount := by
  simp [State.hardReset, State.reset]
@[simp] theorem hardReset_mode : s.hardReset.mode d = s.mode d := by
  simp [State.mode]

@[simp] theorem reset_unit : State.reset.unit d = EnvUnit.atReset := by
  simp [State.unit, State.reset]

@[simp] theorem hardReset_unit : s.hardReset.unit d = EnvUnit.atReset := reset_unit d

end Sys2Proof.Machine
end

