-- ==== Sys2Proof/Laws/Ops.lean ====
section
/-! SUPPORT. What each shared operation can do, said once: `attempt`, `withValid`, `putUnit`, `andThen`, and
the range check `chk32` with the registers that hold its values. -/

namespace Sys2Proof.Machine

/-! ### Exact integers in 32-bit registers -/

/-- The signed 32-bit range (00_scope R19). -/
abbrev InRange (v : Int) : Prop := -2147483648 ≤ v ∧ v ≤ 2147483647

theorem chk32_ok {v w : Int} : chk32 v = .ok w ↔ w = v ∧ InRange v := by
  unfold chk32 InRange
  split
  · simp; omega
  · simp [eq_comm]; omega

theorem chk32_of_inRange {v : Int} (h : InRange v) : chk32 v = .ok v := chk32_ok.2 ⟨rfl, h⟩

theorem chk32_error {v : Int} {r : FaultReason} :
    chk32 v = .error r ↔ r = .overflow ∧ ¬ InRange v := by
  unfold chk32 InRange
  split
  · simp [eq_comm]; omega
  · simp; omega

/-- A register gives back the value written to it, if the value is representable (00_scope R19). -/
theorem toInt_ofValue {v : Int} (h : InRange v) : (ofValue v).toInt = v := by
  unfold InRange at h
  simp only [ofValue, BitVec.toInt_ofInt]
  exact Int.bmod_eq_of_le (by omega) (by omega)

theorem inRange_toInt (w : Word) : InRange w.toInt := by
  have h1 := BitVec.le_toInt w
  have h2 := BitVec.toInt_lt (x := w)
  unfold InRange
  omega

/-! ### The frame of every command -/

/-- Well-formed, unit by unit (20_memory R67). -/
theorem wellFormed_iff {n : Nat} {i : Instr} : i.wellFormed n = true ↔ ∀ d ∈ i.units, d.toNat < n := by
  unfold Instr.wellFormed
  simp

section
variable {s t : State} {i : Instr} {body : Except FaultReason State}

/-- Everything `attempt` can do. -/
theorem attempt_cases (h : s.attempt i body = .next t) :
    (s.fault ≠ .none ∧ t = s)
    ∨ (s.fault = .none ∧ i.wellFormed s.cfg.numInstances = false ∧ t = s.takeRefusal .badUnit)
    ∨ (s.fault = .none ∧ i.wellFormed s.cfg.numInstances = true ∧ body = .ok t)
    ∨ (s.fault = .none ∧ i.wellFormed s.cfg.numInstances = true ∧
        ∃ r, body = .error r ∧ t = s.takeFault i.units r) := by
  unfold State.attempt at h
  split at h
  · rename_i hf
    split at h
    · rename_i hw
      split at h
      · exact .inr (.inr (.inl ⟨hf, hw, by simpa using h⟩))
      · exact .inr (.inr (.inr ⟨hf, hw, _, rfl, by simpa using h.symm⟩))
    · rename_i hw
      exact .inr (.inl ⟨hf, by simpa using hw, by simpa using h.symm⟩)
  · rename_i hf
    exact .inl ⟨hf, by simpa using h.symm⟩

/-- A command always answers a next state: faults and refusals of the spec are states (60_exceptions R206). -/
theorem attempt_next (s : State) (i : Instr) (body : Except FaultReason State) :
    ∃ t, s.attempt i body = .next t := by
  unfold State.attempt
  repeat' split
  all_goals exact ⟨_, rfl⟩

theorem attempt_ok (hf : s.fault = .none) (hw : i.wellFormed s.cfg.numInstances = true)
    (hb : body = .ok t) : s.attempt i body = .next t := by
  simp [State.attempt, hf, hw, hb]

theorem attempt_error {r : FaultReason} (hf : s.fault = .none)
    (hw : i.wellFormed s.cfg.numInstances = true) (hb : body = .error r) :
    s.attempt i body = .next (s.takeFault i.units r) := by
  simp [State.attempt, hf, hw, hb]

theorem attempt_stopped (hf : s.fault ≠ .none) : s.attempt i body = .next s := by
  unfold State.attempt
  split
  · contradiction
  · rfl

theorem attempt_badUnit (hf : s.fault = .none) (hw : i.wellFormed s.cfg.numInstances = false) :
    s.attempt i body = .next (s.takeRefusal .badUnit) := by
  simp [State.attempt, hf, hw]

end

/-! ### Bodies -/

theorem withValid_valid {s : State} {d : UnitNo} {f : EnvUnit → Except FaultReason State}
    (h : (s.unit d).valid = true) : s.withValid d f = f (s.unit d) := by
  simp [State.withValid, h]

theorem withValid_invalid {s : State} {d : UnitNo} {f : EnvUnit → Except FaultReason State}
    (h : (s.unit d).valid = false) : s.withValid d f = .error .uninit := by
  simp [State.withValid, h]

theorem withValid_ok {s t : State} {d : UnitNo} {f : EnvUnit → Except FaultReason State}
    (h : s.withValid d f = .ok t) : (s.unit d).valid = true ∧ f (s.unit d) = .ok t := by
  unfold State.withValid at h
  split at h
  · exact ⟨‹_›, h⟩
  · cases h

theorem putUnit_ok {s t : State} {d : UnitNo} {x : Except FaultReason EnvUnit} :
    s.putUnit d x = .ok t ↔ ∃ u, x = .ok u ∧ t = s.setUnit d u := by
  cases x <;> simp [State.putUnit, Except.map, eq_comm]

@[simp] theorem putUnit_of_ok (s : State) (d : UnitNo) (u : EnvUnit) :
    s.putUnit d (.ok u) = .ok (s.setUnit d u) := rfl

@[simp] theorem putUnit_of_error (s : State) (d : UnitNo) (r : FaultReason) :
    s.putUnit d (.error r) = .error r := rfl

@[simp] theorem andThen_next (s : State) (f : State → Host.Outcome State Fault Refusal) :
    andThen (.next s) f = f s := rfl

theorem andThen_eq_next {o : Host.Outcome State Fault Refusal}
    {f : State → Host.Outcome State Fault Refusal} {t : State} (h : andThen o f = .next t) :
    ∃ s, o = .next s ∧ f s = .next t := by
  cases o with
  | next s => exact ⟨s, rfl, h⟩
  | fault r => cases h
  | refused r => cases h

end Sys2Proof.Machine
end

