-- ==== Sys2Proof/Laws/Advance.lean ====
section
/-! SUPPORT. What ADVANCE and the functions it uses can answer (41_advance, 44_accurate_timing). -/

namespace Sys2Proof.Machine

theorem target_ok {cfg : Config} {l : Nat} {ol t : Int} : target cfg l ol = .ok t ↔
    t = max (blend cfg l ol) 16 * 65536 ∧ InRange (blend cfg l ol) ∧ blend cfg l ol ≤ 32767 := by
  unfold target
  split
  · rename_i e h
    have := chk32_error.1 h
    simp only [reduceCtorEq, false_iff, not_and]
    intro _ hr
    exact absurd hr this.2
  · rename_i b h
    obtain ⟨rfl, hr⟩ := chk32_ok.1 h
    rw [chk32_ok]
    simp only [InRange] at *
    constructor
    · rintro ⟨rfl, h1, h2⟩; refine ⟨rfl, hr, ?_⟩; omega
    · rintro ⟨rfl, -, h2⟩; refine ⟨rfl, ?_, ?_⟩ <;> omega

/-- A target lies between the blend floor and the largest level (10_state R48 I4). -/
theorem target_bounds {cfg : Config} {l : Nat} {ol t : Int} (h : target cfg l ol = .ok t) :
    1048576 ≤ t ∧ t ≤ 2147418112 := by
  obtain ⟨rfl, -, hb⟩ := target_ok.1 h
  omega

theorem clampRate_ok {q : Int} {n : Nat} : clampRate q = .ok n ↔ 0 ≤ q ∧ n = (min q 63).toNat := by
  unfold clampRate
  split
  · simp; omega
  · simp [eq_comm]; omega

theorem clampRate_le {q : Int} {n : Nat} (h : clampRate q = .ok n) : n ≤ 63 := by
  obtain ⟨h0, rfl⟩ := clampRate_ok.1 h
  omega

/-- Every reference increment is at most 917504 (41_advance R146). -/
theorem incRef_le {q : Nat} (h : q ≤ 63) : incRef q ≤ 917504 := by
  interval_cases q <;> decide

/-- Every increment fits its register and is non-negative there (41_advance R148). -/
theorem inc_lt {cal : Word} {q : Nat} (h : q ≤ 63) : inc cal q < 2 ^ 28 := by
  have h1 := incRef_le h
  have h2 := cal.isLt
  unfold inc calibrate
  rw [Nat.shiftRight_eq_div_pow]
  have : incRef q * cal.toNat ≤ 917504 * (2 ^ 32 - 1) := Nat.mul_le_mul h1 (by omega)
  omega

theorem toInt_inc {cal : Word} {q : Nat} (h : q ≤ 63) :
    (BitVec.ofNat 32 (inc cal q)).toInt = inc cal q := by
  have := inc_lt (cal := cal) h
  have hn : (BitVec.ofNat 32 (inc cal q)).toNat = inc cal q := by
    simp only [BitVec.toNat_ofNat]; omega
  rw [BitVec.toInt_eq_toNat_of_lt (by omega), hn]

theorem hold_ok {cfg : Config} {cal : Word} {c : Nat} {za : Bool} {h : Int} :
    hold cfg cal c za = .ok h ↔ h = holdValue cfg cal c za ∧ InRange (holdValue cfg cal c za) := chk32_ok

/-- A hold count is never negative (10_state R48 I3). -/
theorem holdSet_range {sv : Services} {u : EnvUnit} {k : Fin 5} {r l : Nat} {t xr h : Int}
    (hh : holdSet sv u k r l t xr = .ok h) : 0 ≤ h ∧ h ≤ 2147483647 := by
  unfold holdSet at hh
  split at hh
  · cases hh; omega
  · simp only at hh
    split at hh
    · cases hh
    · obtain ⟨rfl, hr⟩ := hold_ok.1 hh
      unfold InRange at hr
      omega

/-- Everything ADVANCE can answer (41_advance R140). -/
theorem advance_ok {sv : Services} {k : Fin 5} {xr : Int} {u v : EnvUnit}
    (h : advance sv k xr u = .ok v) :
    (k = 4 ∧ v = { u with phaseIndex := 4 })
    ∨ (k ≠ 4 ∧ rateParam sv.params k.val ≤ 99 ∧ levelParam sv.params k.val ≤ 99 ∧
      ∃ t q w, target sv.cfg (levelParam sv.params k.val) u.outputLevel.toInt = .ok t ∧
        clampRate (rateCode sv.cfg.rateCode (rateParam sv.params k.val) u.rateScaling.toInt xr) = .ok q ∧
        advanceHold sv u k (rateParam sv.params k.val) (levelParam sv.params k.val) t xr = .ok w ∧
        v = { u with
          phaseIndex := BitVec.ofNat 3 k.val
          targetLevel := ofValue t
          rising := risingFlag t u.level
          holdCount := w
          increment := BitVec.ofNat 32 (inc sv.cal q) }) := by
  unfold advance at h
  split at h
  · exact .inl ⟨‹_›, by simpa using h.symm⟩
  · rename_i hk
    simp only at h
    split at h
    · cases h
    · rename_i hp
      split at h
      · cases h
      · rename_i t ht
        split at h
        · cases h
        · rename_i q hq
          split at h
          · cases h
          · rename_i w hw
            exact .inr ⟨hk, by omega, by omega, t, q, w, ht, hq, hw, by simpa using h.symm⟩

/-- ADVANCE to an active phase, when each of its tests passes. -/
theorem advance_active {sv : Services} {k : Fin 5} {xr t : Int} {q : Nat} {w : Word} {u : EnvUnit}
    (hk : k ≠ 4) (hr : rateParam sv.params k.val ≤ 99) (hl : levelParam sv.params k.val ≤ 99)
    (ht : target sv.cfg (levelParam sv.params k.val) u.outputLevel.toInt = .ok t)
    (hq : clampRate (rateCode sv.cfg.rateCode (rateParam sv.params k.val) u.rateScaling.toInt xr) = .ok q)
    (hw : advanceHold sv u k (rateParam sv.params k.val) (levelParam sv.params k.val) t xr = .ok w) :
    advance sv k xr u = .ok { u with
      phaseIndex := BitVec.ofNat 3 k.val
      targetLevel := ofValue t
      rising := risingFlag t u.level
      holdCount := w
      increment := BitVec.ofNat 32 (inc sv.cal q) } := by
  simp [advance, hk, Nat.not_lt.2 hr, Nat.not_lt.2 hl, ht, hq, hw]

@[simp] theorem advance_idle (sv : Services) (xr : Int) (u : EnvUnit) :
    advance sv 4 xr u = .ok { u with phaseIndex := 4 } := rfl

/-- ADVANCE writes no field but the five of 41_advance R140. -/
theorem advance_frame {sv : Services} {k : Fin 5} {xr : Int} {u v : EnvUnit}
    (h : advance sv k xr u = .ok v) :
    v.valid = u.valid ∧ v.level = u.level ∧ v.gateDown = u.gateDown ∧
    v.outputLevel = u.outputLevel ∧ v.rateScaling = u.rateScaling ∧
    v.phaseIndex = BitVec.ofNat 3 k.val := by
  obtain ⟨rfl, rfl⟩ | ⟨-, -, -, t, q, w, -, -, -, rfl⟩ := advance_ok h <;> simp

end Sys2Proof.Machine
end

