-- ==== Sys2Proof/Laws/Sample.lean ====
section
/-! SUPPORT. What the parts of GETSAMPLE can answer (40_envelope_ops R108 to R115). -/

namespace Sys2Proof.Machine

variable {sv : Services} {n : Nat} {xr : Int} {u v : EnvUnit}

/-- The phase after an active one is the next number (40_envelope_ops R113). -/
theorem nextPhase_val (h : u.phaseIndex.toNat < 4) : (nextPhase u).val = u.phaseIndex.toNat + 1 := by
  simp [nextPhase, h]

/-- `RISE_STEP` answers within the signed 32-bit range (40_envelope_ops R112). -/
theorem riseStep_inRange {rule : RiseStepRule} {a b m c : Int} (h : riseStep rule a b m = .ok c) :
    InRange c := by
  unfold riseStep at h
  split at h
  · unfold referenceRiseStep at h
    simp only at h
    split at h
    · cases h
    · obtain ⟨rfl, hr⟩ := chk32_ok.1 h; exact hr
  · unfold plainRiseStep at h
    split at h
    · cases h
    · obtain ⟨rfl, hr⟩ := chk32_ok.1 h; exact hr
  · split at h
    · obtain ⟨rfl, hr⟩ := chk32_ok.1 h; exact hr
    · cases h

/-- Everything the hold countdown can answer (40_envelope_ops R110). -/
theorem countHold_ok (h : countHold sv n xr u = .ok v) :
    (¬ (sv.mode = .accurate ∧ u.holdCount ≠ 0) ∧ v = u)
    ∨ (sv.mode = .accurate ∧ u.holdCount ≠ 0 ∧ u.holdCount.toInt - n ≤ 0 ∧
        advance sv (nextPhase u) xr { u with holdCount := 0 } = .ok v)
    ∨ (sv.mode = .accurate ∧ u.holdCount ≠ 0 ∧ 0 < u.holdCount.toInt - n ∧
        v = { u with holdCount := ofValue (u.holdCount.toInt - n) }) := by
  unfold countHold at h
  split at h
  · rename_i hm
    split at h
    · exact .inr (.inl ⟨hm.1, hm.2, ‹_›, h⟩)
    · exact .inr (.inr ⟨hm.1, hm.2, by omega, by simpa using h.symm⟩)
  · exact .inl ⟨‹_›, by simpa using h.symm⟩

/-- Everything the batch step can answer (40_envelope_ops R109, R112 to R115): frozen, clamped at the target
with one advance, or moved. -/
theorem stepLevel_ok (h : stepLevel sv n xr u = .ok v) :
    (v = u ∧ (inSteppingWindow sv.cfg u = false ∨ u.holdCount ≠ 0))
    ∨ (inSteppingWindow sv.cfg u = true ∧ u.holdCount = 0 ∧
        advance sv (nextPhase u) xr { u with level := u.targetLevel } = .ok v)
    ∨ (inSteppingWindow sv.cfg u = true ∧ u.holdCount = 0 ∧ u.rising = true ∧
        ∃ c, riseStep sv.cfg.riseStep u.level.toInt u.increment.toInt n = .ok c ∧
          c < u.targetLevel.toInt ∧ v = { u with level := ofValue c })
    ∨ (inSteppingWindow sv.cfg u = true ∧ u.holdCount = 0 ∧ u.rising = false ∧
        InRange (u.increment.toInt * n) ∧ u.targetLevel.toInt < u.level.toInt - u.increment.toInt * n ∧
        v = { u with level := ofValue (u.level.toInt - u.increment.toInt * n) }) := by
  unfold stepLevel at h
  split at h
  · exact .inl ⟨by simpa using h.symm, .inl ‹_›⟩
  rename_i hw
  replace hw : inSteppingWindow sv.cfg u = true := by simpa using hw
  split at h
  · exact .inl ⟨by simpa using h.symm, .inr ‹_›⟩
  rename_i hh
  replace hh : u.holdCount = 0 := by simpa using hh
  split at h
  · rename_i hr
    unfold stepRising at h
    split at h
    · cases h
    · rename_i c hc
      split at h
      · exact .inr (.inl ⟨hw, hh, h⟩)
      · exact .inr (.inr (.inl ⟨hw, hh, hr, c, hc, by omega, by simpa using h.symm⟩))
  · rename_i hr
    unfold stepFalling at h
    split at h
    · cases h
    · rename_i m hm
      obtain ⟨rfl, hrange⟩ := chk32_ok.1 hm
      split at h
      · exact .inr (.inl ⟨hw, hh, h⟩)
      · exact .inr (.inr (.inr ⟨hw, hh, by simpa using hr, hrange, by omega, by simpa using h.symm⟩))

theorem sampleUnit_ok (h : sampleUnit sv n xr u = .ok v) :
    ∃ w, countHold sv n xr u = .ok w ∧ stepLevel sv n xr w = .ok v := by
  unfold sampleUnit at h
  split at h
  · cases h
  · exact ⟨_, ‹_›, h⟩

/-- The countdown writes neither the level nor the fields of 41_advance's frame. -/
theorem countHold_frame (h : countHold sv n xr u = .ok v) :
    v.valid = u.valid ∧ v.level = u.level ∧ v.gateDown = u.gateDown ∧
    v.outputLevel = u.outputLevel ∧ v.rateScaling = u.rateScaling := by
  obtain ⟨-, rfl⟩ | ⟨-, -, -, h⟩ | ⟨-, -, -, rfl⟩ := countHold_ok h
  · simp
  · have := advance_frame h; tauto
  · simp

/-- The batch step writes the level and what its one advance writes, nothing else. -/
theorem stepLevel_frame (h : stepLevel sv n xr u = .ok v) :
    v.valid = u.valid ∧ v.gateDown = u.gateDown ∧
    v.outputLevel = u.outputLevel ∧ v.rateScaling = u.rateScaling := by
  obtain ⟨rfl, -⟩ | ⟨-, -, h⟩ | ⟨-, -, -, c, -, -, rfl⟩ | ⟨-, -, -, -, -, rfl⟩ := stepLevel_ok h
  · simp
  · have := advance_frame h; tauto
  · simp
  · simp

/-- GETSAMPLE writes no field of its unit but `level`, `targetLevel`, `rising`, `phaseIndex`, `increment` and
`holdCount` (40_envelope_ops R108). -/
theorem sampleUnit_frame (h : sampleUnit sv n xr u = .ok v) :
    v.valid = u.valid ∧ v.gateDown = u.gateDown ∧
    v.outputLevel = u.outputLevel ∧ v.rateScaling = u.rateScaling := by
  obtain ⟨w, hc, hs⟩ := sampleUnit_ok h
  have h1 := countHold_frame hc
  have h2 := stepLevel_frame hs
  exact ⟨h2.1.trans h1.1, h2.2.1.trans h1.2.2.1, h2.2.2.1.trans h1.2.2.2.1, h2.2.2.2.trans h1.2.2.2.2⟩

end Sys2Proof.Machine
end

