-- ==== Sys2Proof/Laws/Closed.lean ====
section
/-! SUPPORT. The closed forms that the statements use (Sys2Proof/Safety.lean) and the model's functions give the
same values. -/

namespace Sys2Proof.Machine

variable {sv : Services} {k : Fin 5} {xr : Int} {u : EnvUnit}

theorem phaseBlend_eq : phaseBlend sv k u = blend sv.cfg (levelParam sv.params k.val) u.outputLevel.toInt := by
  unfold phaseBlend blend levelScale
  simp only [Nat.shiftRight_eq_div_pow, Nat.shiftLeft_eq]

theorem phaseRateCode_eq : phaseRateCode sv k xr u
    = rateCode sv.cfg.rateCode (rateParam sv.params k.val) u.rateScaling.toInt xr := by
  unfold phaseRateCode rateCode
  cases sv.cfg.rateCode with
  | reference => simp [referenceRateCode, Int.shiftRight_eq_div_pow]
  | other f => rfl

theorem phaseStaticCode_eq : phaseStaticCode sv k xr u
    = staticCode sv.cfg.staticCode (rateParam sv.params k.val) u.rateScaling.toInt xr := by
  unfold phaseStaticCode staticCode
  cases sv.cfg.staticCode <;> rfl

theorem phaseAfter_eq (h : u.phaseIndex.toNat ≤ 3) : phaseAfter u = nextPhase u := by
  apply Fin.ext
  rw [nextPhase_val (by omega)]
  simp [phaseAfter, Fin.ofNat]
  omega

theorem zeroLevelAttack_eq : zeroLevelAttack k (levelParam sv.params k.val) = zeroAttack sv k := by
  unfold zeroLevelAttack zeroAttack
  by_cases h : k = 0
  · subst h; simp
  · simp [h]

theorem holdValue_eq (cfg : Config) (cal : Word) (c : Nat) (za : Bool) :
    holdValue cfg cal c za = holdSamples cfg cal c za := by
  unfold holdValue holdSamples calibrate zeroAttackDivides holdReference holdRom
  simp only [Nat.shiftRight_eq_div_pow]
  cases za <;> simp

end Sys2Proof.Machine
end

