-- ==== Sys2Proof/Laws/Exec.lean ====
section
/-! SUPPORT. What each command can do, said once: every meaning is an `attempt`, so it answers a next state;
and for each command, the one state it leaves when it completes. -/

namespace Sys2Proof.Machine

/-- Every meaning runs in the frame `attempt` (60_exceptions R200). -/
theorem exec_is_attempt (i : Instr) (s : State) : ∃ body, exec i s = s.attempt i body := by
  cases i <;> exact ⟨_, rfl⟩

/-- Every command answers a next state. -/
theorem exec_next (i : Instr) (s : State) : ∃ t, exec i s = .next t := by
  obtain ⟨body, h⟩ := exec_is_attempt i s
  exact h ▸ attempt_next s i body

/-- A stopped block ignores every command (60_exceptions R208). -/
theorem exec_stopped (i : Instr) {s : State} (h : s.fault ≠ .none) : exec i s = .next s := by
  obtain ⟨body, hb⟩ := exec_is_attempt i s
  rw [hb]; exact attempt_stopped h

/-- A command that leaves FAULT = NONE ran in a running block, on units that exist, and its body completed. -/
theorem attempt_completed {s t : State} {i : Instr} {body : Except FaultReason State}
    (h : s.attempt i body = .next t) (ht : t.fault = .none) :
    s.fault = .none ∧ i.wellFormed s.cfg.numInstances = true ∧ body = .ok t := by
  obtain ⟨hf, rfl⟩ | ⟨hf, -, rfl⟩ | ⟨hf, hw, hok⟩ | ⟨hf, -, r, -, rfl⟩ := attempt_cases h
  · exact absurd ht hf
  · simp [hf] at ht
  · exact ⟨hf, hw, hok⟩
  · simp [hf] at ht

section
variable {s t : State} {d e : UnitNo}

theorem init_completed (h : exec (.init d) s = .next t) (ht : t.fault = .none) :
    ∃ v, advance (s.services d) 0 0 (initFields s.ports (s.unit d)) = .ok v ∧ t = s.setUnit d v :=
  putUnit_ok.1 (attempt_completed h ht).2.2

theorem keydown_completed {g : Bool} (h : exec (.keydown d g) s = .next t) (ht : t.fault = .none) :
    (s.unit d).valid = true ∧
    ((g = (s.unit d).gateDown ∧ t = s)
      ∨ (g ≠ (s.unit d).gateDown ∧ ∃ v,
          advance (s.services d) (gatePhase g) 0 { s.unit d with gateDown := g } = .ok v
          ∧ t = s.setUnit d v)) := by
  obtain ⟨hv, hb⟩ := withValid_ok (attempt_completed h ht).2.2
  refine ⟨hv, ?_⟩
  split at hb
  · exact .inl ⟨‹_›, by simpa using hb.symm⟩
  · exact .inr ⟨‹_›, putUnit_ok.1 hb⟩

theorem update_completed (h : exec (.update d) s = .next t) (ht : t.fault = .none) :
    (s.unit d).valid = true ∧
    (((s.unit d).gateDown = false ∧ t = s)
      ∨ ((s.unit d).gateDown = true ∧ ∃ v,
          advance (s.services d) 2 0
            { s.unit d with outputLevel := s.ports.ol, rateScaling := s.ports.rs } = .ok v
          ∧ t = s.setUnit d v)) := by
  obtain ⟨hv, hb⟩ := withValid_ok (attempt_completed h ht).2.2
  refine ⟨hv, ?_⟩
  split at hb
  · exact .inr ⟨‹_›, putUnit_ok.1 hb⟩
  · rename_i hg
    exact .inl ⟨by simpa using hg, by simpa using hb.symm⟩

theorem getposition_completed (h : exec (.getposition d) s = .next t) (ht : t.fault = .none) :
    (s.unit d).valid = true ∧ t = s.writeResult ((s.unit d).phaseIndex.setWidth 32) := by
  obtain ⟨hv, hb⟩ := withValid_ok (attempt_completed h ht).2.2
  exact ⟨hv, by simpa using hb.symm⟩

theorem transfer_completed (h : exec (.transfer d e) s = .next t) (ht : t.fault = .none) :
    (s.unit e).valid = true ∧ s.mode d = s.mode e ∧ t = s.setUnit d (s.unit e) := by
  obtain ⟨hv, hb⟩ := withValid_ok (attempt_completed h ht).2.2
  split at hb
  · cases hb
  · rename_i hm
    exact ⟨hv, by simpa using hm, by simpa using hb.symm⟩

theorem getsample_completed (h : exec (.getsample d) s = .next t) (ht : t.fault = .none) :
    (s.unit d).valid = true ∧ s.ports.nValue < 2 ^ 31 ∧
    ((s.ports.nValue = 0 ∧ t = s.writeResult (s.unit d).level)
      ∨ (s.ports.nValue ≠ 0 ∧ ∃ v,
          sampleUnit (s.services d) s.ports.nValue s.ports.xrValue (s.unit d) = .ok v
          ∧ t = (s.setUnit d v).writeResult v.level)) := by
  obtain ⟨hv, hb⟩ := withValid_ok (attempt_completed h ht).2.2
  split at hb
  · cases hb
  · rename_i hn
    refine ⟨hv, by omega, ?_⟩
    split at hb
    · exact .inl ⟨‹_›, by simpa using hb.symm⟩
    · refine .inr ⟨‹_›, ?_⟩
      cases hs : sampleUnit (s.services d) s.ports.nValue s.ports.xrValue (s.unit d) with
      | error r => simp [hs, Except.map] at hb
      | ok v => exact ⟨v, rfl, by simpa [hs, Except.map] using hb.symm⟩

theorem setSampleRate_completed (h : exec .setSampleRate s = .next t) (ht : t.fault = .none) :
    s.ports.rateValue ≠ 0 ∧ calOf s.cfg.calOf s.ports.rateValue < 2 ^ 32 ∧
    t = s.setCal (BitVec.ofNat 32 (calOf s.cfg.calOf s.ports.rateValue)) := by
  have hb := (attempt_completed h ht).2.2
  split at hb
  · cases hb
  · split at hb
    · cases hb
    · exact ⟨‹_›, by omega, by simpa using hb.symm⟩

theorem levelScale_completed (h : exec .levelScale s = .next t) (ht : t.fault = .none) :
    s.ports.linValue ≤ 127 ∧
    t = s.writeResult (BitVec.ofNat 32 (levelScale s.cfg s.ports.linValue)) := by
  have hb := (attempt_completed h ht).2.2
  split at hb
  · cases hb
  · exact ⟨by omega, by simpa using hb.symm⟩

theorem advance_completed {k : Fin 5} {xr : Word} (h : exec (.advance d k xr) s = .next t)
    (ht : t.fault = .none) :
    ∃ v, advance (s.services d) k xr.toInt (s.unit d) = .ok v ∧ t = s.setUnit d v :=
  putUnit_ok.1 (attempt_completed h ht).2.2

end

end Sys2Proof.Machine
end

