-- ==== Sys2Proof/Laws/PerInstr.lean ====
section
/-! SUPPORT. The family `Encoding`: the word of each command matches the row of its opcode
(30_encoding R82, R83), one lemma per constructor. -/

namespace Sys2Proof.Laws.Encoding

/-- The word that encodes `i` has a row, and the row's mask and match accept it (30_encoding R82). -/
def Statement (i : Instr) : Prop :=
  ∀ w, encode i = some w → ∃ mask, rowMask (opField w) = some mask ∧ w &&& mask = rowMatch (opField w)

/-- A word whose opcode and fixed bits are a row's satisfies the row. -/
theorem of_fields {w mask : Word} {op : BitVec 4} (ho : opField w = op) (hm : rowMask op = some mask)
    (hw : w &&& mask = rowMatch op) :
    ∃ mask, rowMask (opField w) = some mask ∧ w &&& mask = rowMatch (opField w) :=
  ⟨mask, by rw [ho]; exact hm, by rw [ho]; exact hw⟩

/-- Opcode of a word with `DST` alone. -/
theorem opField_dst (op : BitVec 4) (d : UnitNo) :
    opField (op.setWidth 32 ||| d.setWidth 32 <<< 8) = op := by
  ext j hj
  simp only [opField]
  interval_cases j <;> simp

/-- The fixed bits of a word with `DST` alone. -/
theorem mask_dst (op : BitVec 4) (d : UnitNo) :
    (op.setWidth 32 ||| d.setWidth 32 <<< 8) &&& 0xFFFF00FF#32 = rowMatch op := by
  ext j hj
  simp only [rowMatch]
  interval_cases j <;> simp

theorem init (d : UnitNo) : Statement (.init d) := by
  rintro w ⟨⟩
  exact of_fields (opField_dst 1 d) rfl (mask_dst 1 d)

theorem keydown (d : UnitNo) (g : Bool) : Statement (.keydown d g) := by
  rintro w ⟨⟩
  refine of_fields (op := 2) ?_ rfl ?_
  · ext j hj
    simp only [opField]
    interval_cases j <;> simp
  · ext j hj
    simp only [rowMatch]
    interval_cases j <;> simp

theorem getsample (d : UnitNo) : Statement (.getsample d) := by
  rintro w ⟨⟩
  exact of_fields (opField_dst 3 d) rfl (mask_dst 3 d)

theorem update (d : UnitNo) : Statement (.update d) := by
  rintro w ⟨⟩
  exact of_fields (opField_dst 4 d) rfl (mask_dst 4 d)

theorem getposition (d : UnitNo) : Statement (.getposition d) := by
  rintro w ⟨⟩
  exact of_fields (opField_dst 5 d) rfl (mask_dst 5 d)

theorem transfer (d e : UnitNo) : Statement (.transfer d e) := by
  rintro w ⟨⟩
  refine of_fields (op := 6) ?_ rfl ?_
  · ext j hj
    simp only [opField]
    interval_cases j <;> simp
  · ext j hj
    simp only [rowMatch]
    interval_cases j <;> simp

theorem setSampleRate : Statement .setSampleRate := by
  rintro w ⟨⟩
  exact of_fields (op := 7) (by decide) rfl (by decide)

theorem levelScale : Statement .levelScale := by
  rintro w ⟨⟩
  exact of_fields (op := 8) (by decide) rfl (by decide)

theorem advance (d : UnitNo) (k : Fin 5) (xr : Word) : Statement (.advance d k xr) := by
  rintro w ⟨⟩

end Sys2Proof.Laws.Encoding
end

