-- ==== Sys2Proof/Tests/Slice0.lean ====
section
/-! SUPPORT. Tests: each expected value is the spec's own (a vector V<n> of 95_test_vectors, the worked words
of 30_encoding R93, or the rule named), and for every statement with hypotheses a witness that meets them. -/

namespace Sys2Proof.Tests

open Sys2Proof.Machine

/-! ## WellFormed: each check refuses an ill-formed term -/

theorem test_wf_init : (Instr.init 8).wellFormed 8 = false ∧ (Instr.init 7).wellFormed 8 = true := by decide
theorem test_wf_keydown : (Instr.keydown 8 true).wellFormed 8 = false := by decide
theorem test_wf_getsample : (Instr.getsample 8).wellFormed 8 = false := by decide
theorem test_wf_update : (Instr.update 255).wellFormed 255 = false := by decide
theorem test_wf_getposition : (Instr.getposition 1).wellFormed 1 = false := by decide
theorem test_wf_transfer_dst : (Instr.transfer 8 0).wellFormed 8 = false := by decide
theorem test_wf_transfer_src : (Instr.transfer 0 8).wellFormed 8 = false := by decide
theorem test_wf_advance : (Instr.advance 8 0 0).wellFormed 8 = false := by decide
theorem test_wf_largest : (Instr.transfer 255 255).wellFormed 256 = true := by decide

/-! ## Decode: words written out from 30_encoding R81, R82 -/

/-- OP = 1, DST = 3 (R93); V1. -/
theorem test_decode_init : decode 8 0x00000301#32 = .ok (.init 3) ∧ decode 8 0x00000001#32 = .ok (.init 0) := by
  decide
/-- OP = 2, G = 1, DST = 7 (V2); G = 0 (R93). -/
theorem test_decode_keydown : decode 8 0x00000712#32 = .ok (.keydown 7 true)
    ∧ decode 8 0x00000302#32 = .ok (.keydown 3 false) := by decide
theorem test_decode_getsample : decode 8 0x00000303#32 = .ok (.getsample 3) := by decide
theorem test_decode_update : decode 8 0x00000304#32 = .ok (.update 3) := by decide
theorem test_decode_getposition : decode 8 0x00000305#32 = .ok (.getposition 3) := by decide
/-- DST = w[15:8] = 5, SRC = w[23:16] = 3 (R93). -/
theorem test_decode_transfer : decode 8 0x00030506#32 = .ok (.transfer 5 3) := by decide
theorem test_decode_setSampleRate : decode 8 0x00000007#32 = .ok .setSampleRate := by decide
theorem test_decode_levelScale : decode 8 0x00000008#32 = .ok .levelScale := by decide
/-- V3, V4. -/
theorem test_refuse_badUnit : decode 8 0x00000812#32 = .error .badUnit
    ∧ decode 8 0x00080106#32 = .error .badUnit := by decide
/-- V5, V6, and opcode 9, the first above the table. -/
theorem test_refuse_op : decode 8 0x00000000#32 = .error .reservedOp
    ∧ decode 8 0x0000000F#32 = .error .reservedOp ∧ decode 8 0x00000009#32 = .error .reservedOp := by decide
/-- V7, V8, V9 (the mask test comes before the unit test). -/
theorem test_refuse_field : decode 8 0x00000023#32 = .error .reservedField
    ∧ decode 8 0x01000005#32 = .error .reservedField ∧ decode 8 0x00000813#32 = .error .reservedField := by
  decide
/-- 30_encoding R90: ADVANCE has no word. -/
theorem test_encode_advance : encode (.advance 3 1 0) = none := by decide
theorem test_encode_transfer : encode (.transfer 5 3) = some 0x00030506#32 := by decide

/-- The names of 30_encoding R91, and two lines in order. -/
theorem witness_assembledLines : "P" ≠ "Q"
    ∧ (Machine.Asm.getpos 3).assemble [] = some ⟨0x00000305#32, Machine.Ports.atReset⟩
    ∧ (Machine.Asm.lscale 19).assemble [] = some ⟨0x00000008#32, { Machine.Ports.atReset with lin := 19 }⟩ := by
  decide

/-! ## One step on a small state -/

/-- The state a step or a command answers. -/
def after (o : Host.Outcome State Fault Refusal) : State :=
  match o with
  | .next t => t
  | .fault _ => State.reset
  | .refused _ => State.reset

/-- The vectors' block: 8 units, of which 1, 2 and 3 are ACCURATE. -/
def cfg8 : Config :=
  { defaultConfig with
    numInstances := 8
    modes := ((defaultConfig.modes.set 1 .accurate).set 2 .accurate).set 3 .accurate }

/-- The block of the vectors, with the ports `p` and the unit `u` as `E[d]`. -/
def bench (p : Ports) (d : UnitNo) (u : EnvUnit) : State :=
  ({ State.reset with cfg := cfg8, ports := p } : State).setUnit d u

/-- The parameter set `{99,99,99,99/99,99,0,0}` (30_encoding R85: byte k is `rates[k]`, byte 4 + k `levels[k]`). -/
def paramsA : ParamWord := 0x0000636363636363#64

/-- `{99,99,90,99/99,90,85,0}`. -/
def paramsB : ParamWord := 0x00555A63635A6363#64

/-- `{50,99,98,99/0,99,99,0}`. -/
def paramsC : ParamWord := 0x0063630063626332#64

/-- `{99,99,99,99/99,90,85,0}`. -/
def paramsD : ParamWord := 0x00555A6363636363#64

def portsA : Ports := { Ports.atReset with params := paramsA }
def portsB : Ports := { Ports.atReset with params := paramsB }

/-- V40's end state. -/
def unitA : EnvUnit where
  valid := true
  level := 0
  targetLevel := 1048576
  rising := true
  phaseIndex := 0
  gateDown := true
  increment := 917504
  outputLevel := 127
  rateScaling := 0
  holdCount := 0

/-- V72's unit before: falling in phase 1. -/
def unitFalling : EnvUnit :=
  { unitA with level := 236978176, targetLevel := 234881024, rising := false, phaseIndex := 1, outputLevel := 4064 }

/-- V45's end state. -/
def unitC : EnvUnit := { unitA with increment := 4096, outputLevel := 4064, holdCount := 330 }

/-- P4's unit after its second line (V90). -/
def unitP4 : EnvUnit :=
  { unitA with level := 185860096, targetLevel := 251658240, increment := 458752, outputLevel := 4064 }

/-- V40. -/
theorem test_init_standard :
    (after (exec (.init 0) (bench { portsA with ol := 127 } 0 EnvUnit.atReset))).unit 0 = unitA := by decide

/-- V45: an ACCURATE unit, a zero-level attack. -/
theorem test_init_accurate :
    (after (exec (.init 1) (bench { Ports.atReset with params := paramsC, ol := 4064 } 1 EnvUnit.atReset))).unit 1
      = unitC := by decide

/-- V50. -/
theorem test_keydown_release :
    (after (exec (.keydown 0 false)
      (bench portsA 0 { unitA with level := 1048576, rising := false, phaseIndex := 3 }))).unit 0
      = { unitA with level := 1048576, rising := false, phaseIndex := 3, gateDown := false } := by decide

/-- V54: the level is not reset by a note-on. -/
theorem test_keydown_attack :
    (after (exec (.keydown 0 true) (bench { portsB with params := paramsD } 0
      { unitA with level := 145489920, gateDown := false, outputLevel := 3000, phaseIndex := 3 }))).unit 0
      = { unitA with level := 145489920, targetLevel := 181927936, outputLevel := 3000 } := by decide

/-- V60a: RESULT and the phase entered. -/
theorem test_getsample_reaches :
    (after (exec (.getsample 0) (bench { portsA with n := 1 } 0 unitA))).result = 1048576
    ∧ (after (exec (.getsample 0) (bench { portsA with n := 1 } 0 unitA))).unit 0
      = { unitA with level := 1048576, phaseIndex := 1, rising := false } := by decide

/-- V72: the excess is discarded. -/
theorem test_getsample_falls :
    (after (exec (.getsample 0) (bench { portsB with n := 16 } 0 unitFalling))).unit 0
      = { unitFalling with level := 234881024, phaseIndex := 2, targetLevel := 222298112,
                           increment := 327680 } := by decide

/-- V80. -/
theorem test_update_held :
    (after (exec (.update 0) (bench { Ports.atReset with params := paramsD, ol := 3000 } 0
      { unitA with level := 138149888, targetLevel := 251658240, outputLevel := 4064 }))).unit 0
      = { unitA with level := 138149888, targetLevel := 152567808, phaseIndex := 2, outputLevel := 3000 } := by
  decide

/-- V83. -/
theorem test_update_rate_code :
    (after (exec (.update 0) (bench { Ports.atReset with rs := 0xFFFFFFFF#32 } 0 unitA))).readFault = 3 := by
  decide

/-- V86. -/
theorem test_getposition :
    (after (exec (.getposition 0) (bench Ports.atReset 0 unitFalling))).readResult = .ok 1 := by decide

/-- V87. -/
theorem test_getposition_uninit :
    (after (exec (.getposition 2) (bench Ports.atReset 0 unitA))).fault = .fault .uninit := by decide

/-- V90. -/
theorem test_transfer :
    (after (exec (.transfer 4 0) (bench Ports.atReset 0 unitP4))).unit 4 = unitP4 := by decide

/-- V92. -/
theorem test_transfer_mode :
    (after (exec (.transfer 3 0) (bench Ports.atReset 0 unitP4))).fault = .fault .modeMismatch := by
  decide

/-- V23, V22. -/
theorem test_setSampleRate :
    (after (exec .setSampleRate { State.reset with ports := { Ports.atReset with rate := 173 } })).cal = 4276735408
    ∧ (after (exec .setSampleRate { State.reset with ports := { Ports.atReset with rate := 48000 } })).cal
      = 15414067 := by decide

/-- V24: CAL keeps its value. -/
theorem test_setSampleRate_range :
    (after (exec .setSampleRate { State.reset with ports := { Ports.atReset with rate := 172 } })).fault
      = .fault .operandRange
    ∧ (after (exec .setSampleRate { State.reset with ports := { Ports.atReset with rate := 172 } })).cal
      = 16777216 := by decide

/-- V12, V13. -/
theorem test_levelScale :
    (after (exec .levelScale { State.reset with ports := { Ports.atReset with lin := 20 } })).result = 48
    ∧ (after (exec .levelScale { State.reset with ports := { Ports.atReset with lin := 127 } })).result = 155 := by
  decide

/-- V17: LIN is unsigned. -/
theorem test_levelScale_range :
    (after (exec .levelScale { State.reset with ports := { Ports.atReset with lin := 0xFFFFFFFF#32 } })).fault
      = .fault .operandRange := by decide

/-- V102: target equal to level, code 98. -/
theorem test_advance_hold :
    ((after (exec (.advance 1 2 0) (bench { Ports.atReset with params := paramsC } 1
      { unitC with level := 251658240, phaseIndex := 1 }))).unit 1).holdCount = 20 := by decide

/-- V36: a blend of 32768 overflows. -/
theorem test_advance_overflow :
    (after (exec (.advance 0 0 0) (bench portsA 0 { unitA with outputLevel := 32992 }))).fault
      = .fault .overflow := by decide

/-- V64 and V66: the gain above 17 << 24 is negative; the candidate can overflow. -/
theorem test_riseStep : riseStep .reference 2146435072 917504 1 = .ok 2044592128
    ∧ riseStep .reference 0 917504 222 = .error .overflow := by decide

/-- V38, V39. -/
theorem test_rateCode : clampRate (rateCode .reference 60 10 3) = .ok 51
    ∧ clampRate (rateCode .reference 0 0 (-1)) = .error .rateCode := by decide

/-- V121: the first step after reset, its word placed where the step takes its command. -/
theorem test_fetch_getposition :
    (after (step (State.reset.withFetchWord 32 0x00000005))).readFault = 1 := by decide

/-- V122: after a refusal INIT is ignored. -/
theorem test_refused_then_ignored :
    (after (step ((after (step (State.reset.withFetchWord 32 0))).withFetchWord 32 1))).readFault = 8
    ∧ ((after (step ((after (step (State.reset.withFetchWord 32 0))).withFetchWord 32 1))).unit 0).valid
      = false := by decide

/-- V124: the reset event leaves the stopped state. -/
theorem test_reset_event :
    (after (step { State.reset with fault := .fault .operandRange, cal := 5, inbox := [.reset] })).fault = .none
    ∧ (after (step { State.reset with fault := .fault .operandRange, cal := 5, inbox := [.reset] })).cal
      = 16777216 := by decide

/-- 30_encoding R91: `INIT e3, {99,99,99,99/99,99,0,0}, 127, 0`, its word (R93) and its ports. -/
theorem test_assemble :
    (Asm.init 3 (.literal ⟨#v[99, 99, 99, 99], #v[99, 99, 0, 0]⟩) 127 0).assemble []
      = some ⟨0x00000301#32, { portsA with ol := 127 }⟩ := by decide

/-! ## Witnesses: for each statement with hypotheses, a state and operands that meet them -/

/-- A stopped block with the events `l` before it. -/
def stopped (l : List HostEvent) : State := { State.reset with fault := .fault .uninit, inbox := l }

/-- The block of the vectors with the events `l` before it. -/
def awaiting (l : List HostEvent) : State := { State.reset with cfg := cfg8, inbox := l }

theorem witness_encodedCommandsDecode :
    (Instr.transfer 7 0).wellFormed 8 = true ∧ encode (.transfer 7 0) = some 0x00000706#32
    ∧ (Instr.keydown 255 true).wellFormed 256 = true ∧ encode (.keydown 255 true) = some 0x0000FF12#32 := by decide

theorem witness_decodedWordsEncode : decode 8 0x00070007#32 = .error .reservedField
    ∧ decode 8 0x00070006#32 = .ok (.transfer 0 7) ∧ decode 256 0x0000FF01#32 = .ok (.init 255) := by decide

theorem witness_atMostOneRowMatches : rowMask 6 = some 0xFF0000FF#32
    ∧ 0x00FFFF06#32 &&& 0xFF0000FF#32 = rowMatch 6 := by decide

/-- Opcodes 0, 9 and 15; KEYDOWN and TRANSFER with a reserved bit, with unit 8 of 8, and with unit 7. -/
theorem witness_decodeProcedure :
    (0x00000000#32).toNat % 16 = 0 ∧ 9 ≤ (0x00000009#32).toNat % 16 ∧ 9 ≤ (0x0000000F#32).toNat % 16
    ∧ 0x00000022#32 &&& 0xFFFF00EF#32 ≠ BitVec.ofNat 32 2
    ∧ 0x00000812#32 &&& 0xFFFF00EF#32 = BitVec.ofNat 32 2 ∧ (∃ d ∈ (Instr.keydown 8 true).units, 8 ≤ d.toNat)
    ∧ 0x00070706#32 &&& 0xFF0000FF#32 = BitVec.ofNat 32 6 ∧ ∀ d ∈ (Instr.transfer 7 7).units, d.toNat < 8 := by
  decide

theorem witness_stepRunsDecodedCommand :
    (awaiting [.command ⟨0x00000301#32, portsA⟩]).fault = .none
    ∧ decode (awaiting []).cfg.numInstances 0x00000301#32 = .ok (.init 3) := by decide

/-- A refused word, and a unit just past the bank. -/
theorem witness_refusals :
    (awaiting [.command ⟨0x00000000#32, portsA⟩]).fault = .none
    ∧ decode (awaiting []).cfg.numInstances 0x00000000#32 = .error .reservedOp
    ∧ (8 : UnitNo) ∈ (Instr.init 8).units ∧ (awaiting []).cfg.numInstances ≤ (8 : UnitNo).toNat := by decide

theorem witness_stoppedBlock :
    (stopped [.command ⟨1, portsA⟩]).fault ≠ .none ∧ (stopped [.overlap [⟨1, portsA⟩]]).fault ≠ .none
    ∧ (stopped [.reset]).inbox = .reset :: [] ∧ (stopped []).inbox = []
    ∧ HostEvent.reset ∉ (stopped [.command ⟨1, portsA⟩]).inbox := by decide

theorem witness_idle : State.reset.inbox = [] := rfl

theorem witness_resetEvent : (stopped [.reset, .command ⟨1, portsA⟩]).inbox
    = .reset :: [.command ⟨1, portsA⟩] := rfl

/-- SET_SAMPLE_RATE with each command of R71 a, before and after it, and two commands on one unit. -/
theorem witness_forbiddenOverlap :
    (awaiting [.overlap [⟨0x7, portsA⟩, ⟨0x1, portsA⟩]]).fault = .none
    ∧ [(⟨0x7, portsA⟩ : Command), ⟨0x1, portsA⟩].Sublist [⟨0x7, portsA⟩, ⟨0x1, portsA⟩]
    ∧ decode 8 0x7#32 = .ok .setSampleRate ∧ decode 8 0x1#32 = .ok (.init 0)
    ∧ decode 8 0x2#32 = .ok (.keydown 0 false) ∧ decode 8 0x3#32 = .ok (.getsample 0)
    ∧ decode 8 0x4#32 = .ok (.update 0) ∧ decode 8 0x00000106#32 = .ok (.transfer 1 0)
    ∧ (0 : UnitNo) ∈ (Instr.transfer 1 0).units ∧ (0 : UnitNo) ∈ (Instr.getposition 0).units := by decide

/-- INIT on two units, and SET_SAMPLE_RATE beside each command that R71 does not forbid there. -/
theorem witness_allowedOverlap :
    (awaiting [.overlap [⟨0x1, portsA⟩, ⟨0x101, portsA⟩]]).fault = .none
    ∧ decode 8 0x1#32 = .ok (.init 0) ∧ decode 8 0x101#32 = .ok (.init 1)
    ∧ ¬ MustNotOverlap (.init 0) (.init 1) ∧ ¬ MustNotOverlap .setSampleRate .levelScale
    ∧ ¬ MustNotOverlap .setSampleRate (.getposition 0) ∧ ¬ MustNotOverlap (.transfer 1 0) .setSampleRate
    ∧ ¬ MustNotOverlap .setSampleRate .setSampleRate := by
  refine ⟨by decide, by decide, by decide, ?_, ?_, ?_, ?_, ?_⟩ <;> simp [MustNotOverlap, Instr.units]

/-- The forbidden pairs of `witness_forbiddenOverlap`, SET_SAMPLE_RATE on either side, and one unit named twice. -/
theorem witness_mustNotOverlap :
    MustNotOverlap .setSampleRate (.init 0) ∧ MustNotOverlap (.keydown 0 false) .setSampleRate
    ∧ MustNotOverlap .setSampleRate (.getsample 0) ∧ MustNotOverlap (.update 0) .setSampleRate
    ∧ MustNotOverlap (.transfer 1 0) (.getposition 0) := by
  simp [MustNotOverlap, Instr.units]

/-- INIT of unit 1 and a note-off of unit 0. -/
theorem witness_distinctUnitsCommute :
    (∀ d, d ∈ (Instr.init 1).units → d ∉ (Instr.keydown 0 false).units)
    ∧ ∃ t, (andThen (exec (.init 1) { bench portsA 0 unitA with ports := portsA })
        fun r => exec (.keydown 0 false) { r with ports := portsA }) = .next t ∧ t.fault = .none := by
  exact ⟨by decide, _, rfl, by decide⟩

/-- A good state with one valid unit in a hold, and a command that it answers with no fault. -/
theorem witness_stepKeepsUnitsGood :
    ({ bench portsA 1 unitC with inbox := [.command ⟨0x103, { portsA with n := 300 }⟩] } : State).Good
    ∧ ∃ t, step { bench portsA 1 unitC with inbox := [.command ⟨0x103, { portsA with n := 300 }⟩] } = .next t
      ∧ t.fault = .none := by
  refine ⟨fun _ d h => ?_, _, rfl, by decide⟩
  by_cases hd : d = 1
  · subst hd
    exact ⟨by decide, by decide, by decide, by decide, by decide, by decide⟩
  · rw [inbox_unit, bench, unit_setUnit_ne _ _ _ _ hd] at h
    simp [State.unit, State.reset, EnvUnit.atReset] at h

theorem witness_stepKeepsConfiguration :
    ∃ t, step (awaiting [.command ⟨0x7, { portsA with rate := 48000 }⟩]) = .next t ∧ t.fault = .none :=
  ⟨_, rfl, by decide⟩

/-- INIT writes no CAL, SET_SAMPLE_RATE completes. -/
theorem witness_calHasOneWriter :
    (∃ t, exec (.init 0) (awaiting []) = .next t ∧ t.fault = .none)
    ∧ ∃ t, exec .setSampleRate { State.reset with ports := { portsA with rate := 88200 } } = .next t
      ∧ t.cal = 8388608 := ⟨⟨_, rfl, by decide⟩, _, rfl, by decide⟩

/-- A command that completes and does not name unit 1, and a TRANSFER that completes. -/
theorem witness_onlyOwnUnitWritten :
    (1 : UnitNo) ∉ (Instr.keydown 0 false).units
    ∧ (∃ t, exec (.keydown 0 false) (bench portsA 0 unitA) = .next t ∧ t.fault = .none)
    ∧ ∃ t, exec (.transfer 4 0) (bench portsA 0 unitA) = .next t ∧ t.fault = .none :=
  ⟨by decide, ⟨_, rfl, by decide⟩, _, rfl, by decide⟩

/-- Each writer leaves the clause that does not exclude it: KEYDOWN, GETSAMPLE and UPDATE all complete. -/
theorem witness_voiceFieldsHaveThreeWriters :
    (∃ t, exec (.getsample 0) (bench { portsA with n := 1 } 0 unitA) = .next t ∧ t.fault = .none)
    ∧ (∃ t, exec (.update 0) (bench portsA 0 unitA) = .next t ∧ t.fault = .none)
    ∧ ∃ t, exec (.keydown 0 true) (bench portsA 0 unitA) = .next t ∧ t.fault = .none :=
  ⟨⟨_, rfl, by decide⟩, ⟨_, rfl, by decide⟩, _, rfl, by decide⟩

theorem witness_idempotentCommands :
    (bench portsA 0 unitA).ports.n = 0#32
    ∧ (∃ t, exec (.getsample 0) (bench portsA 0 unitA) = .next t ∧ t.fault = .none)
    ∧ ∃ t, exec (.transfer 4 0) (bench portsA 0 unitA) = .next t ∧ t.fault = .none :=
  ⟨by decide, ⟨_, rfl, by decide⟩, _, rfl, by decide⟩

theorem witness_namedWritesFrame : (4 : UnitNo) ≠ 0 := by decide

/-- An invalid unit 2 beside a valid unit 0; unit 7 is the last. -/
theorem witness_uninitialisedUnitFaults :
    (bench portsA 0 unitA).fault = .none ∧ ((bench portsA 0 unitA).unit 2).valid = false
    ∧ (Instr.transfer 7 2).wellFormed (bench portsA 0 unitA).cfg.numInstances = true
    ∧ (Instr.getsample 2).wellFormed (bench portsA 0 unitA).cfg.numInstances = true
    ∧ (∃ t, exec (.init 2) (bench portsA 0 unitA) = .next t ∧ t.fault = .none)
    ∧ ((bench portsA 0 unitA).unit 0).valid = true
    ∧ ∃ t, exec (.transfer 7 0) (bench portsA 0 unitA) = .next t ∧ t.fault = .none :=
  ⟨by decide, by decide, by decide, by decide, ⟨_, rfl, by decide⟩, by decide, _, rfl, by decide⟩

/-- A fault, and a refusal. -/
theorem witness_raisedFault :
    (∃ t, exec (.update 2) (bench portsA 0 unitA) = .next t ∧ t.fault = .fault .uninit)
    ∧ ∃ t, exec (.update 8) (bench portsA 0 unitA) = .next t ∧ t.fault = .refused .badUnit :=
  ⟨⟨_, rfl, by decide⟩, _, rfl, by decide⟩

/-! The five clauses on the order of ADVANCE's faults, at the boundary where each begins. -/

/-- `rates[0]` = 100, `levels[0]` = 100. -/
theorem witness_advance_paramRange :
    99 < rateParam 0x64#64 0 ∧ 99 < levelParam 0x6400000000#64 0 := by decide

/-- V36, and a blend just below the signed 32-bit range. -/
theorem witness_advance_blend :
    rateParam paramsA 0 ≤ 99 ∧ levelParam paramsA 0 ≤ 99
    ∧ phaseBlend ((bench portsA 0 unitA).services 0) 0 { unitA with outputLevel := 32992 } = 32768
    ∧ phaseBlend ((bench Ports.atReset 0 unitA).services 0) 0 { unitA with outputLevel := 0x80000000#32 }
      < -2147483648 := by decide

/-- A rate code of -1 (V39, by `rateScaling`). -/
theorem witness_advance_rateCode :
    -2147483648 ≤ phaseBlend ((bench Ports.atReset 0 unitA).services 0) 0 unitA
    ∧ phaseBlend ((bench Ports.atReset 0 unitA).services 0) 0 unitA ≤ 32767
    ∧ phaseRateCode ((bench Ports.atReset 0 unitA).services 0) 0 0 { unitA with rateScaling := 0xFFFFFFFF#32 } = -1 := by
  decide

/-- The static code is -1 where the extra rate lifts the rate code to 0, in a zero-level attack. -/
theorem witness_advance_staticCode :
    let u := { unitC with rateScaling := 0xFFFFFFFF#32 }
    holdsOnEntry ((bench Ports.atReset 1 u).services 1) 0 u
    ∧ phaseRateCode ((bench Ports.atReset 1 u).services 1) 0 1 u = 0
    ∧ phaseStaticCode ((bench Ports.atReset 1 u).services 1) 0 1 u = -1 :=
  ⟨⟨by decide, .inr (by decide)⟩, by decide, by decide⟩

/-- A hold above the signed 32-bit range: code 0, target equal to level, the largest CAL. -/
theorem witness_advance_holdOverflow :
    let s : State := { bench Ports.atReset 1 { unitA with level := 1048576 } with
      cfg := { cfg8 with holdTable := [9000000] }, cal := 0xFFFFFFFF#32 }
    holdsOnEntry (s.services 1) 1 (s.unit 1) ∧ phaseStaticCode (s.services 1) 1 0 (s.unit 1) = 0
    ∧ 0 ≤ phaseRateCode (s.services 1) 1 0 (s.unit 1) ∧ zeroAttack (s.services 1) 1 = false
    ∧ 2147483647 < holdSamples s.cfg s.cal 0 false :=
  ⟨⟨by decide, .inl (by decide)⟩, by decide, by decide, by decide, by decide⟩

/-- The faults that the four commands pass on: `rates[k]` = 100 in phases 0, 3, 2 and 1. -/
theorem witness_callersPassOnAdvanceFaults :
    advance ((bench { portsA with params := 0x64#64 } 0 unitA).services 0) 0 0
      { unitA with level := 0 } = .error .paramRange
    ∧ advance ((bench { portsA with params := 0x64000000#64 } 0 unitA).services 0) 3 0
      { unitA with gateDown := false } = .error .paramRange
    ∧ advance ((bench { portsA with params := 0x640000#64 } 0 unitA).services 0) 2 0 unitA = .error .paramRange
    ∧ advance ((bench { portsA with params := 0x6400#64 } 1 unitC).services 1) (phaseAfter unitC) 0
      { unitC with holdCount := 0 } = .error .paramRange
    ∧ (bench portsA 1 unitC).mode 1 = .accurate ∧ unitC.holdCount ≠ 0#32 ∧ unitC.holdCount.toInt ≤ 330
    ∧ unitC.phaseIndex.toNat ≤ 3 := by decide

/-- The stepping after a hold expiry: with N = 330 the rising step of phase 1 overflows. -/
theorem witness_callersPassOn_secondStep :
    ∃ v, advance ((bench portsA 1 unitC).services 1) (phaseAfter unitC) 0 { unitC with holdCount := 0 } = .ok v
      ∧ stepLevel ((bench portsA 1 unitC).services 1) 330 0 v = .error .overflow := ⟨_, rfl, by decide⟩

/-- The ADVANCE of the stepping: V60a's and V72's units with `rates[1]`, `rates[2]` = 100. -/
theorem witness_callersPassOn_steppingAdvance :
    inSteppingWindow cfg8 unitA = true ∧ unitA.holdCount = 0#32
    ∧ riseStep cfg8.riseStep unitA.level.toInt unitA.increment.toInt 1 = .ok 121634816
    ∧ unitA.targetLevel.toInt ≤ 121634816
    ∧ advance ((bench { portsA with params := 0x6400#64 } 0 unitA).services 0) (phaseAfter unitA) 0
      { unitA with level := unitA.targetLevel } = .error .paramRange
    ∧ unitFalling.level.toInt - unitFalling.increment.toInt * 16 ≤ unitFalling.targetLevel.toInt
    ∧ advance ((bench { portsA with params := 0x640000#64 } 0 unitFalling).services 0) (phaseAfter unitFalling) 0
      { unitFalling with level := unitFalling.targetLevel } = .error .paramRange := by decide

/-- The boundary operands: N = 2^31, LIN = 128, RATE = 172, RATE = 0, and units 0 and 3 of different modes. -/
theorem witness_operandAndModeFaults :
    2147483648 ≤ (0x80000000#32).toNat ∧ 127 < (128#32).toNat
    ∧ 4294967296 ≤ calOf .floor (172#32).toNat ∧ (0#32).toNat = 0
    ∧ (bench portsA 0 unitA).mode 3 ≠ (bench portsA 0 unitA).mode 0
    ∧ ((bench portsA 0 unitA).unit 0).valid = true := by decide

/-- V68 (the least n that overflows, falling) and V66 (rising). -/
theorem witness_steppingOverflows :
    inSteppingWindow cfg8 unitFalling = true ∧ unitFalling.rising = false
    ∧ 2147483647 < unitFalling.increment.toInt * 2341
    ∧ inSteppingWindow cfg8 unitA = true ∧ unitA.rising = true ∧ cfg8.riseStep = .reference
    ∧ 2147483647 < max unitA.level.toInt 112459776
        + (285212672 - max unitA.level.toInt 112459776) / 16777216 * unitA.increment.toInt * 222 := by decide

/-- EntryRuns in a STANDARD unit, in phases 0 and 3. -/
theorem witness_entryRuns_standard :
    EntryRuns ((bench portsA 0 unitA).services 0) 0 0 unitA
    ∧ EntryRuns ((bench portsA 0 unitA).services 0) 3 0 { unitA with gateDown := false } :=
  ⟨⟨by decide, by decide, by decide, by decide, by decide, fun _ => by decide, fun _ => by decide,
      fun _ => by decide⟩,
    ⟨by decide, by decide, by decide, by decide, by decide, fun _ => by decide, fun _ => by decide,
      fun _ => by decide⟩⟩

/-- EntryRuns in an ACCURATE unit that computes a hold (V102, V45), and in UPDATE's phase 2. -/
theorem witness_entryRuns_accurate :
    let sv := (bench { portsA with params := paramsC } 1 unitC).services 1
    EntryRuns sv 2 0 { unitC with level := 251658240 } ∧ holdsOnEntry sv 2 { unitC with level := 251658240 }
    ∧ EntryRuns sv 0 0 { unitC with level := 0 } ∧ holdsOnEntry sv 0 { unitC with level := 0 } :=
  ⟨⟨by decide, by decide, by decide, by decide, by decide, fun _ => by decide, fun _ => by decide,
      fun _ => by decide⟩, ⟨by decide, .inl (by decide)⟩,
    ⟨by decide, by decide, by decide, by decide, by decide, fun _ => by decide, fun _ => by decide,
      fun _ => by decide⟩, ⟨by decide, .inr (by decide)⟩⟩

theorem witness_running : (bench portsA 0 unitA).fault = .none ∧ (bench portsA 0 unitA).Exists 7
    ∧ ((bench portsA 0 unitA).unit 0).valid = true ∧ ((bench portsA 0 unitA).unit 0).gateDown = true
    ∧ ((bench portsA 0 { unitA with gateDown := false }).unit 0).gateDown = !true := by
  refine ⟨by decide, ?_, by decide, by decide, by decide⟩
  show (7 : UnitNo).toNat < 8
  decide

theorem witness_incrementOfRateCode : (0 : Nat) ≤ 63 ∧ (63 : Nat) ≤ 63 := by decide

theorem witness_rateCodeClamped : (-1 : Int) < 0 ∧ (63 : Int) ≤ 63 ∧ (63 : Int) < 64 ∧ (99 : Int) ≤ 99 := by decide

/-- INIT of the same unit with different histories completes. -/
theorem witness_initForgetsOldUnit :
    (bench portsA 0 unitFalling).cfg = (bench portsA 0 unitC).cfg
    ∧ (bench portsA 0 unitFalling).ports = (bench portsA 0 unitC).ports
    ∧ (∃ t, exec (.init 0) (bench portsA 0 unitFalling) = .next t ∧ t.fault = .none)
    ∧ ∃ t, exec (.init 0) (bench portsA 0 unitC) = .next t ∧ t.fault = .none :=
  ⟨rfl, rfl, ⟨_, rfl, by decide⟩, _, rfl, by decide⟩

/-- IDLE, and phase 3 with the gate held (V70, V71), at N = 0 and the largest N. -/
theorem witness_getsampleFrozen :
    let s := bench { portsA with n := 0x7FFFFFFF#32 } 0 { unitA with phaseIndex := 4 }
    s.mode 0 = .standard ∧ (s.unit 0).phaseIndex = 4#3 ∧ s.ports.n.toNat < 2147483648
    ∧ ((bench portsA 0 { unitA with phaseIndex := 3 }).unit 0).phaseIndex = 3#3
    ∧ cfg8.ph3HeldSteps = false ∧ portsA.n = 0#32 := by decide

/-- V75: 300 of 330, 1 of 330 and 329 of 330. -/
theorem witness_getsampleCountsHold :
    (bench portsA 1 unitC).mode 1 = .accurate ∧ 0 < (1#32).toNat
    ∧ ((300#32).toNat : Int) < unitC.holdCount.toInt ∧ ((329#32).toNat : Int) < unitC.holdCount.toInt := by decide

/-- A hold of 16 expires at N = 16 exactly; the unit then steps in phase 1. -/
theorem witness_getsampleHoldExpires :
    let u := { unitC with holdCount := 16 }
    let s := bench { portsA with params := paramsC, n := 16 } 1 u
    (s.mode 1 = .accurate ∧ 0 < (s.unit 1).holdCount.toInt ∧ (s.unit 1).holdCount.toInt ≤ s.ports.n.toNat
      ∧ s.ports.n.toNat < 2147483648)
    ∧ ChainRuns (s.services 1) 0 { s.unit 1 with holdCount := 0 }
    ∧ ∃ w, stepLevel (s.services 1) 16 0 (chained (s.services 1) 0 { s.unit 1 with holdCount := 0 }) = .ok w :=
  ⟨by decide, ⟨by decide, fun _ => ⟨by decide, by decide, by decide, by decide, by decide, fun _ => by decide,
    fun _ => by decide, fun _ => by decide⟩⟩, _, rfl⟩

/-- Rising (V60 with a higher target) and falling by one sample, each short of its target. -/
theorem witness_getsampleMovesLevel :
    inSteppingWindow cfg8 unitP4 = true ∧ unitP4.holdCount = 0#32
    ∧ riseStep cfg8.riseStep unitP4.level.toInt unitP4.increment.toInt 1 = .ok 188153856
    ∧ (188153856 : Int) < unitP4.targetLevel.toInt
    ∧ inSteppingWindow cfg8 unitFalling = true ∧ unitFalling.rising = false
    ∧ unitFalling.targetLevel.toInt < unitFalling.level.toInt - unitFalling.increment.toInt * 1 := by decide

/-- V60a, V72 and V73 (level equal to target), with ChainRuns of the phase they are in. -/
theorem witness_getsampleReachesTarget :
    riseStep cfg8.riseStep unitA.level.toInt unitA.increment.toInt 1 = .ok 121634816
    ∧ unitA.targetLevel.toInt ≤ 121634816
    ∧ unitFalling.level.toInt - unitFalling.increment.toInt * 16 ≤ unitFalling.targetLevel.toInt
    ∧ ChainRuns ((bench portsB 0 unitFalling).services 0) 0
        { unitFalling with level := unitFalling.targetLevel } :=
  ⟨by decide, by decide, by decide, by decide, fun _ => ⟨by decide, by decide, by decide, by decide, by decide,
    fun _ => by decide, fun _ => by decide, fun _ => by decide⟩⟩

theorem witness_riseStepFormulas :
    (285212672 - max (0 : Int) 112459776) / 16777216 * 917504 * 221 ≤ 2147483647
    ∧ max (0 : Int) 112459776 + (285212672 - max (0 : Int) 112459776) / 16777216 * 917504 * 221 ≤ 2147483647
    ∧ (917504 : Int) * 2340 ≤ 2147483647 := by decide

/-- A rising and a falling GETSAMPLE that move the level within the phase. -/
theorem witness_levelMonotoneInPhase :
    (∃ t, exec (.getsample 0) (bench { portsA with n := 1 } 0 unitP4) = .next t ∧ t.fault = .none
      ∧ (t.unit 0).phaseIndex = unitP4.phaseIndex ∧ (t.unit 0).level ≠ unitP4.level)
    ∧ (∃ t, exec (.getsample 0) (bench { portsA with n := 1 } 0 unitFalling) = .next t ∧ t.fault = .none
      ∧ (t.unit 0).phaseIndex = unitFalling.phaseIndex ∧ (t.unit 0).level ≠ unitFalling.level)
    ∧ riseStep .reference 285212672 917504 1 = .ok 285212672 :=
  ⟨⟨_, rfl, by decide, by decide, by decide⟩, ⟨_, rfl, by decide, by decide, by decide⟩, by decide⟩

/-- The states of `witness_levelMonotoneInPhase` are good. -/
theorem witness_levelMonotoneInPhase_good :
    (bench { portsA with n := 1 } 0 unitP4).Good ∧ (bench { portsA with n := 1 } 0 unitFalling).Good := by
  constructor <;>
  · intro _ d h
    by_cases hd : d = 0
    · subst hd
      exact ⟨by decide, by decide, by decide, by decide, by decide, by decide⟩
    · rw [bench, unit_setUnit_ne _ _ _ _ hd] at h
      simp [State.unit, State.reset, EnvUnit.atReset] at h

/-- The bound of two phases is reached: a hold expires and the phase entered ends in the same batch. -/
theorem witness_getsamplePhaseBound :
    ∃ t, exec (.getsample 1) (bench { portsA with n := 16 } 1 { unitC with holdCount := 16 }) = .next t ∧ t.fault = .none
      ∧ (t.unit 1).phaseIndex = 2 := ⟨_, rfl, by decide, by decide⟩

theorem witness_smallBlocks :
    (33554432#32).toNat ≤ 33554432 ∧ (285212672 : Int) ≤ 285212672 ∧ (1835008 : Int) ≤ 1835008
    ∧ (110 : Int) ≤ 110 := by decide

theorem witness_transferCopiesUnit :
    (bench portsA 0 unitA).mode 7 = (bench portsA 0 unitA).mode 0
    ∧ ((bench portsA 0 unitA).unit 0).valid = true := by decide

/-- A TRANSFER that completes, followed by a run that completes. -/
theorem witness_transferKeepsTrajectory :
    ∃ t, exec (.transfer 4 0) (bench portsA 0 unitP4) = .next t ∧ t.fault = .none
      ∧ ∃ y, drive 4 [.getsample { portsA with n := 16 }, .keydown portsA false] t = .next y
        ∧ y.fault = .none := ⟨_, rfl, by decide, _, rfl, by decide⟩

theorem witness_setSampleRate : (awaiting []).cfg.calOf = .floor ∧ 173 ≤ (173#32).toNat
    ∧ calOf (.other 0) (44100#32).toNat < 4294967296 ∧ (44100#32).toNat ≠ 0 := by decide

theorem witness_levelScale : (0#32).toNat < 20 ∧ (19#32).toNat < 20 ∧ 20 ≤ (20#32).toNat
    ∧ (127#32).toNat ≤ 127 := by decide

theorem witness_legal : defaultConfig.legal = true ∧ cfg8.legal = true := by decide

end Sys2Proof.Tests
end

