-- ==== Sys2Proof/Proofs/Configuration.lean ====
section
/-! SUPPORT. The configuration (`MODE`, the ROMs and the other parameters) is constant: first what the body of a
command can write at all, then which states a command can leave, then the configuration along every step. -/

namespace Sys2Proof.Machine

/-! ### What the body of a command writes -/

/-- `t` is `s` with nothing written but the unit bank, `CAL` and `RESULT`. -/
def State.BodyWrites (s t : State) : Prop :=
  ∃ us cal r w, t = { s with units := us, cal := cal, result := r, resultWritten := w }

section
variable {s t : State} {d : UnitNo}

theorem bodyWrites_refl (s : State) : s.BodyWrites s := ⟨_, _, _, _, rfl⟩

theorem bodyWrites_setUnit (s : State) (d : UnitNo) (u : EnvUnit) : s.BodyWrites (s.setUnit d u) :=
  ⟨_, _, _, _, rfl⟩

theorem bodyWrites_writeResult (s : State) (v : Word) : s.BodyWrites (s.writeResult v) :=
  ⟨_, _, _, _, rfl⟩

theorem bodyWrites_setCal (s : State) (v : Word) : s.BodyWrites (s.setCal v) := ⟨_, _, _, _, rfl⟩

theorem State.BodyWrites.trans {u : State} (hst : s.BodyWrites t) (htu : t.BodyWrites u) :
    s.BodyWrites u := by
  obtain ⟨_, _, _, _, rfl⟩ := hst
  obtain ⟨_, _, _, _, rfl⟩ := htu
  exact ⟨_, _, _, _, rfl⟩

theorem State.BodyWrites.cfg_eq (h : s.BodyWrites t) : t.cfg = s.cfg := by
  obtain ⟨_, _, _, _, rfl⟩ := h
  rfl

theorem bodyWrites_of_putUnit {x : Except FaultReason EnvUnit} (h : s.putUnit d x = .ok t) :
    s.BodyWrites t := by
  obtain ⟨u, -, rfl⟩ := putUnit_ok.1 h
  exact bodyWrites_setUnit s d u

/-- Every command is an `attempt` whose body, when it completes, writes units, `CAL` and `RESULT` only. -/
theorem exec_body (i : Instr) (s : State) :
    ∃ body, exec i s = s.attempt i body ∧ ∀ t, body = .ok t → s.BodyWrites t := by
  cases i with
  | init d => exact ⟨_, rfl, fun _ h => bodyWrites_of_putUnit h⟩
  | keydown d g =>
    refine ⟨_, rfl, fun t h => ?_⟩
    obtain ⟨-, hb⟩ := withValid_ok h
    split at hb
    · cases hb; exact bodyWrites_refl s
    · exact bodyWrites_of_putUnit hb
  | getsample d =>
    refine ⟨_, rfl, fun t h => ?_⟩
    obtain ⟨-, hb⟩ := withValid_ok h
    split at hb
    · cases hb
    split at hb
    · cases hb; exact bodyWrites_writeResult s _
    · cases hs : sampleUnit (s.services d) s.ports.nValue s.ports.xrValue (s.unit d) with
      | error r => rw [hs] at hb; cases hb
      | ok v =>
        rw [hs] at hb; cases hb
        exact (bodyWrites_setUnit s d v).trans (bodyWrites_writeResult _ _)
  | update d =>
    refine ⟨_, rfl, fun t h => ?_⟩
    obtain ⟨-, hb⟩ := withValid_ok h
    split at hb
    · exact bodyWrites_of_putUnit hb
    · cases hb; exact bodyWrites_refl s
  | getposition d =>
    refine ⟨_, rfl, fun t h => ?_⟩
    obtain ⟨-, hb⟩ := withValid_ok h
    cases hb; exact bodyWrites_writeResult s _
  | transfer d e =>
    refine ⟨_, rfl, fun t h => ?_⟩
    obtain ⟨-, hb⟩ := withValid_ok h
    split at hb
    · cases hb
    · cases hb; exact bodyWrites_setUnit s d _
  | setSampleRate =>
    refine ⟨_, rfl, fun t hb => ?_⟩
    split at hb
    · cases hb
    split at hb
    · cases hb
    · cases hb; exact bodyWrites_setCal s _
  | levelScale =>
    refine ⟨_, rfl, fun t hb => ?_⟩
    split at hb
    · cases hb
    · cases hb; exact bodyWrites_writeResult s _
  | advance d k xr => exact ⟨_, rfl, fun _ h => bodyWrites_of_putUnit h⟩

/-! ### What a command can leave -/

/-- Everything a command can do: a completed body, a refused unit number, or a fault raised by the body; a
stopped block counts under the first, for it writes nothing (60_exceptions R200, R206, R208). -/
theorem exec_cases {i : Instr} (h : exec i s = .next t) :
    s.BodyWrites t ∨ t = s.takeRefusal .badUnit ∨ ∃ r, t = s.takeFault i.units r := by
  obtain ⟨body, hbody, hwrites⟩ := exec_body i s
  obtain ⟨-, rfl⟩ | ⟨-, -, rfl⟩ | ⟨-, -, hok⟩ | ⟨-, -, r, -, rfl⟩ := attempt_cases (hbody ▸ h)
  · exact .inl (bodyWrites_refl t)
  · exact .inr (.inl rfl)
  · exact .inl (hwrites t hok)
  · exact .inr (.inr ⟨r, rfl⟩)

/-! ### The configuration along a step -/

theorem exec_cfg {i : Instr} (h : exec i s = .next t) : t.cfg = s.cfg := by
  obtain hw | rfl | ⟨r, rfl⟩ := exec_cases h
  · exact hw.cfg_eq
  · exact takeRefusal_cfg s .badUnit
  · exact takeFault_cfg s i.units r

theorem present_cfg {c : Command} (h : present c s = .next t) : t.cfg = s.cfg := by
  unfold present at h
  split at h
  · split at h
    · cases h; rfl
    · exact exec_cfg (s := { s with ports := c.ports }) h
  · cases h; rfl

theorem runInSomeOrder_cfg {k : Nat} {cs : List Command} (h : runInSomeOrder k cs s = .next t) :
    t.cfg = s.cfg := by
  induction k generalizing cs s with
  | zero => cases h; rfl
  | succ k ih =>
    unfold runInSomeOrder at h
    split at h
    · cases h; rfl
    · obtain ⟨m, hpresent, hrest⟩ := andThen_eq_next h
      have hfirst : m.cfg = s.cfg := present_cfg (s := { s with freeCount := s.freeCount + 1 }) hpresent
      exact (ih hrest).trans hfirst

theorem presentOverlap_cfg {cs : List Command} (h : presentOverlap cs s = .next t) :
    t.cfg = s.cfg := by
  unfold presentOverlap at h
  split at h
  · split at h
    · cases h; exact takeRace_cfg s
    · exact runInSomeOrder_cfg h
  · cases h; rfl

theorem handle_cfg {e : HostEvent} (h : handle e s = .next t) : t.cfg = s.cfg := by
  cases e with
  | command c => exact present_cfg h
  | overlap cs => exact presentOverlap_cfg h
  | reset => cases h; exact hardReset_cfg s

theorem step_cfg (h : step s = .next t) : t.cfg = s.cfg := by
  unfold step issue at h
  split at h
  · cases h; rfl
  · rename_i e rest _
    exact handle_cfg (s := { s with inbox := rest }) h

end

/-- Settles O20 (20_memory R61): a step handles at most one host event, and each kind of event keeps the
configuration, because a command's body writes units, `CAL` and `RESULT` alone and taking a fault, a refusal, a
race or a reset leaves it. -/
theorem stepKeepsConfiguration : Obligations.StepKeepsConfiguration :=
  fun _ _ => step_cfg

end Sys2Proof.Machine
end

