-- ==== Sys2Proof/Proofs/DecodeProcedure.lean ====
section
/-! SUPPORT. The decoder of 30_encoding R87: its fields as arithmetic on the word, then what each of its three
tests answers, then the eight rows of R82. -/

namespace Sys2Proof

section
variable {w mask : Word} {op : BitVec 4} {i : Instr}

/-! ### The fields of a word as arithmetic (30_encoding R81) -/

@[simp] theorem toNat_opField (w : Word) : (opField w).toNat = w.toNat % 16 := by
  simp [opField]

theorem dstField_eq_ofNat (w : Word) : dstField w = BitVec.ofNat 8 (w.toNat / 256) := by
  simp [dstField, BitVec.extractLsb', Nat.shiftRight_eq_div_pow]

theorem srcField_eq_ofNat (w : Word) : srcField w = BitVec.ofNat 8 (w.toNat / 65536) := by
  simp [srcField, BitVec.extractLsb', Nat.shiftRight_eq_div_pow]

theorem gField_eq_decide (w : Word) : gField w = decide (w.toNat / 16 % 2 = 1) := by
  simp [gField, BitVec.getLsbD, Nat.testBit_eq_decide_div_mod_eq]

theorem rowMatch_opField (w : Word) : rowMatch (opField w) = BitVec.ofNat 32 (w.toNat % 16) := by
  apply BitVec.eq_of_toNat_eq
  simp [rowMatch]

/-! ### The three tests (30_encoding R87) -/

theorem rowMask_eq_none (h : op.toNat = 0 ∨ 9 ≤ op.toNat) : rowMask op = none := by
  unfold rowMask
  split
  case h_9 => rfl
  all_goals omega

theorem decode_of_rowMask_eq_none (n : Nat) (h : rowMask (opField w) = none) :
    decode n w = .error .reservedOp := by
  simp [decode, h]

/-- A word whose opcode has a row is left to the mask test and the unit test. -/
theorem decode_of_row (n : Nat) (hmask : rowMask (opField w) = some mask)
    (hinstr : rowInstr (opField w) w = some i) :
    decode n w = if w &&& mask = BitVec.ofNat 32 (w.toNat % 16) then
      if i.wellFormed n then .ok i else .error .badUnit
    else .error .reservedField := by
  simp [decode, hmask, hinstr, rowMatch_opField]

/-- The three outcomes of `decode_of_row`, the units of the command named one by one. -/
theorem decode_tests_of_row (n : Nat) (hmask : rowMask (opField w) = some mask)
    (hinstr : rowInstr (opField w) w = some i) :
    (w &&& mask ≠ BitVec.ofNat 32 (w.toNat % 16) → decode n w = .error .reservedField)
    ∧ (w &&& mask = BitVec.ofNat 32 (w.toNat % 16) → (∃ d ∈ i.units, n ≤ d.toNat) →
        decode n w = .error .badUnit)
    ∧ (w &&& mask = BitVec.ofNat 32 (w.toNat % 16) → (∀ d ∈ i.units, d.toNat < n) →
        decode n w = .ok i) := by
  rw [decode_of_row n hmask hinstr]
  refine ⟨fun hfixed => if_neg hfixed, fun hfixed hbad => ?_, fun hfixed hgood => ?_⟩
  · obtain ⟨d, hd, hle⟩ := hbad
    have hnot : ¬ i.wellFormed n = true := fun hwf =>
      absurd (Machine.wellFormed_iff.1 hwf d hd) (Nat.not_lt.2 hle)
    rw [if_pos hfixed, if_neg hnot]
  · rw [if_pos hfixed, if_pos (Machine.wellFormed_iff.2 hgood)]

/-! ### The eight rows (30_encoding R82) -/

/-- The table of 30_encoding R82 as rows of opcode, mask and command, the fields read from `w`. -/
def encodingRows (w : Word) : List (Nat × Word × Instr) :=
  [(1, 0xFFFF00FF#32, .init (dstField w)),
   (2, 0xFFFF00EF#32, .keydown (dstField w) (gField w)),
   (3, 0xFFFF00FF#32, .getsample (dstField w)),
   (4, 0xFFFF00FF#32, .update (dstField w)),
   (5, 0xFFFF00FF#32, .getposition (dstField w)),
   (6, 0xFF0000FF#32, .transfer (dstField w) (srcField w)),
   (7, 0xFFFFFFFF#32, .setSampleRate),
   (8, 0xFFFFFFFF#32, .levelScale)]

/-- The row of the table with opcode `op` is the one the decoder looks up. -/
theorem row_of_mem_encodingRows (h : (op.toNat, mask, i) ∈ encodingRows w) :
    rowMask op = some mask ∧ rowInstr op w = some i := by
  simp only [encodingRows, List.mem_cons, List.not_mem_nil, or_false, Prod.mk.injEq] at h
  unfold rowMask rowInstr
  obtain ⟨hop, rfl, rfl⟩ | ⟨hop, rfl, rfl⟩ | ⟨hop, rfl, rfl⟩ | ⟨hop, rfl, rfl⟩ | ⟨hop, rfl, rfl⟩ |
    ⟨hop, rfl, rfl⟩ | ⟨hop, rfl, rfl⟩ | ⟨hop, rfl, rfl⟩ := h <;> simp [hop]

end

/-- Settles O4 (30_encoding R87): an opcode outside 1 to 8 has no row; any other has the row of R82 that its
command is read from, and then the mask test comes before the unit test. -/
theorem decodeProcedure : Obligations.DecodeProcedure := by
  intro n w
  refine ⟨fun hop => decode_of_rowMask_eq_none n (rowMask_eq_none ?_), fun mask i hrow => ?_⟩
  · rwa [toNat_opField]
  · rw [← toNat_opField, ← dstField_eq_ofNat, ← srcField_eq_ofNat, ← gField_eq_decide] at hrow
    obtain ⟨hmask, hinstr⟩ := row_of_mem_encodingRows hrow
    exact decode_tests_of_row n hmask hinstr

end Sys2Proof
end

