-- ==== Sys2Proof/Proofs/PhaseEntry.lean ====
section
/-! SUPPORT. Entering a phase: under the conditions `EntryRuns` and `ChainRuns` on the operands and the unit,
ADVANCE (41_advance R140) answers the closed forms `entered` and `chained`. One lemma per test of ADVANCE, in the
order of its pseudocode. -/

namespace Sys2Proof.Machine

variable {sv : Services} {k : Fin 5} {xr : Int} {u : EnvUnit}

theorem target_eq_phaseTarget (h : EntryRuns sv k xr u) :
    target sv.cfg (levelParam sv.params k.val) u.outputLevel.toInt = .ok (phaseTarget sv k u) := by
  have hlow := h.blend_low
  have hhigh := h.blend_high
  rw [phaseBlend_eq] at hlow hhigh
  exact target_ok.2 ⟨by rw [phaseTarget, phaseBlend_eq], ⟨hlow, by omega⟩, hhigh⟩

theorem clampRate_eq_min_phaseRateCode (h : EntryRuns sv k xr u) :
    clampRate (rateCode sv.cfg.rateCode (rateParam sv.params k.val) u.rateScaling.toInt xr)
      = .ok (min (phaseRateCode sv k xr u) 63).toNat :=
  clampRate_ok.2 (phaseRateCode_eq (k := k) ▸ ⟨h.code, rfl⟩)

/-- HOLD_SET (44_accurate_timing R194) with its static code and hold in closed form. -/
theorem holdSet_of_holdsOnEntry (h : EntryRuns sv k xr u) (he : holdsOnEntry sv k u) :
    holdSet sv u k (rateParam sv.params k.val) (levelParam sv.params k.val) (phaseTarget sv k u) xr
      = .ok (holdSamples sv.cfg sv.cal (phaseStaticCode sv k xr u).toNat (zeroAttack sv k)) := by
  have htest : ¬ (phaseTarget sv k u ≠ u.level.toInt ∧ zeroAttack sv k = false) := by
    obtain ⟨-, ht | hz⟩ := he
    · exact fun hn => hn.1 ht
    · simp [hz]
  have hcode : ¬ (phaseStaticCode sv k xr u < 0 ∨ 99 < phaseStaticCode sv k xr u) := by
    have := h.static_low he
    have := h.static_high he
    omega
  have hrange := h.hold he
  simp only [holdSet, zeroLevelAttack_eq, ← phaseStaticCode_eq]
  rw [if_neg htest, if_neg hcode, hold, holdValue_eq]
  exact chk32_of_inRange ⟨by omega, by omega⟩

theorem holdSet_of_not_holdsOnEntry (hm : sv.mode = .accurate) (he : ¬ holdsOnEntry sv k u) :
    holdSet sv u k (rateParam sv.params k.val) (levelParam sv.params k.val) (phaseTarget sv k u) xr
      = .ok 0 := by
  have htest : phaseTarget sv k u ≠ u.level.toInt ∧ zeroAttack sv k = false := by
    simpa [holdsOnEntry, hm] using he
  rw [holdSet, zeroLevelAttack_eq, if_pos htest]

theorem advanceHold_eq_enteredHold (h : EntryRuns sv k xr u) :
    advanceHold sv u k (rateParam sv.params k.val) (levelParam sv.params k.val) (phaseTarget sv k u) xr
      = .ok (enteredHold sv k xr u) := by
  unfold advanceHold enteredHold
  cases hm : sv.mode with
  | standard => rfl
  | accurate =>
    by_cases hc : phaseTarget sv k u = u.level.toInt ∨ zeroAttack sv k = true
    · simp [holdSet_of_holdsOnEntry h ⟨hm, hc⟩, hc, Except.map, ofValue]
    · simp [holdSet_of_not_holdsOnEntry hm (fun he => hc he.2), hc, Except.map, ofValue]

/-- `INC(q)` as arithmetic on the calibration scalar (41_advance R146, R148). -/
theorem inc_eq_mul_div (cal : Word) (q : Nat) :
    inc cal q = (4 + q % 4) * 2 ^ (2 + q / 4) * cal.toNat / 2 ^ 24 := by
  simp only [inc, calibrate, incRef, Nat.shiftRight_eq_div_pow, Nat.shiftLeft_eq]

/-- ADVANCE to an active phase whose tests all pass enters it (41_advance R140). -/
theorem advance_eq_entered (hk : k ≠ 4) (h : EntryRuns sv k xr u) :
    advance sv k xr u = .ok (entered sv k xr u) := by
  rw [advance_active hk h.rate h.level (target_eq_phaseTarget h) (clampRate_eq_min_phaseRateCode h)
    (advanceHold_eq_enteredHold h), inc_eq_mul_div]
  rfl

/-- ADVANCE to `phaseIndex + 1` ends the phase: IDLE after phase 3, else the next active phase
(40_envelope_ops R113). -/
theorem advance_nextPhase_eq_chained (h : ChainRuns sv xr u) :
    advance sv (nextPhase u) xr u = .ok (chained sv xr u) := by
  obtain ⟨hactive, hentry⟩ := h
  rw [← phaseAfter_eq hactive]
  by_cases hlast : u.phaseIndex = 3
  · have hidle : phaseAfter u = 4 := by simp [phaseAfter, hlast]
    rw [hidle, advance_idle, chained, if_pos hlast]
  · have hne : u.phaseIndex.toNat ≠ 3 := fun hc => hlast (BitVec.eq_of_toNat_eq hc)
    have hval := nextPhase_val (u := u) (by omega)
    have hk : phaseAfter u ≠ 4 := by
      rw [phaseAfter_eq hactive]
      intro hc
      rw [hc] at hval
      simp at hval
      omega
    rw [advance_eq_entered hk (hentry hlast), chained, if_neg hlast]

@[simp] theorem entered_level (sv : Services) (k : Fin 5) (xr : Int) (u : EnvUnit) :
    (entered sv k xr u).level = u.level := rfl

@[simp] theorem chained_level (sv : Services) (xr : Int) (u : EnvUnit) :
    (chained sv xr u).level = u.level := by
  unfold chained
  split <;> rfl

end Sys2Proof.Machine
end

