-- ==== Sys2Proof/Proofs/EnvelopeOps.lean ====
section
/-! SUPPORT. What KEYDOWN, GETSAMPLE, UPDATE and GETPOSITION answer in a running block on a valid unit
(40_envelope_ops). -/

namespace Sys2Proof.Machine

section
variable {s t : State} {d : UnitNo} {i : Instr} {f : EnvUnit → Except FaultReason State}

/-- A command on one valid unit of a running block answers the state its body completes with
(60_exceptions R200, R202). -/
theorem attempt_withValid_ok (hi : i.units = [d]) (hf : s.fault = .none) (hd : s.Exists d)
    (hv : (s.unit d).valid = true) (hb : f (s.unit d) = .ok t) :
    s.attempt i (s.withValid d f) = .next t :=
  attempt_ok hf (wellFormed_iff.2 (by simpa [hi, State.Exists] using hd)) ((withValid_valid hv).trans hb)

end

/-! ### KEYDOWN, UPDATE and GETPOSITION -/

/-- Settles O39 (40_envelope_ops R105): KEYDOWN tests the gate before it reads an operand. -/
theorem keydownSameGateIsNoop : Obligations.KeydownSameGateIsNoop :=
  fun _ _ hf hd hv => attempt_withValid_ok rfl hf hd hv (if_pos rfl)

/-- Settles O52 (40_envelope_ops R121): UPDATE tests the gate before it reads an operand. -/
theorem updateReleasedIsNoop : Obligations.UpdateReleasedIsNoop := by
  intro s d hf hd hv hg
  exact attempt_withValid_ok rfl hf hd hv (if_neg (by simp [hg]))

/-- Settles O53 (40_envelope_ops R125, R126): the model widens the phase index with zeros. -/
theorem getpositionReadsPhase : Obligations.GetpositionReadsPhase := by
  intro s d hf hd hv
  rw [BitVec.ofNat_toNat]
  exact attempt_withValid_ok rfl hf hd hv rfl

theorem gatePhase_eq (g : Bool) : gatePhase g = if g then 0 else 3 := rfl

theorem gatePhase_ne_idle (g : Bool) : gatePhase g ≠ 4 := by cases g <;> decide

/-- Settles O38 (40_envelope_ops R107): a changed gate is stored, and ADVANCE enters the phase it selects, which
is never IDLE. -/
theorem keydownEntersPhase : Obligations.KeydownEntersPhase := by
  intro s d g hf hd hv hg hruns
  rw [← gatePhase_eq] at hruns ⊢
  have hchanged : g ≠ (s.unit d).gateDown := by simp [hg]
  refine attempt_withValid_ok rfl hf hd hv ((if_neg hchanged).trans ?_)
  rw [advance_eq_entered (gatePhase_ne_idle g) hruns, putUnit_of_ok]

/-! ### GETSAMPLE -/

section
variable {sv : Services} {n : Nat} {xr : Int} {u v : EnvUnit}

/-- The batch step of `n` samples reaches or crosses the target (40_envelope_ops R113). -/
def CrossesTarget (sv : Services) (n : Nat) (u : EnvUnit) : Prop :=
  (u.rising = true ∧ ∃ c, riseStep sv.cfg.riseStep u.level.toInt u.increment.toInt n = .ok c
      ∧ u.targetLevel.toInt ≤ c)
    ∨ (u.rising = false ∧ InRange (u.increment.toInt * n)
      ∧ u.level.toInt - u.increment.toInt * n ≤ u.targetLevel.toInt)

/-- With no hold running the countdown leaves the unit (40_envelope_ops R110). -/
theorem countHold_of_holdCount_eq_zero (hh : u.holdCount = 0) : countHold sv n xr u = .ok u :=
  if_neg fun hrun => hrun.2 hh

/-- With no hold running GETSAMPLE is the batch step alone (40_envelope_ops R108). -/
theorem sampleUnit_of_holdCount_eq_zero (hh : u.holdCount = 0) :
    sampleUnit sv n xr u = stepLevel sv n xr u := by
  rw [sampleUnit, countHold_of_holdCount_eq_zero hh]

/-- A batch step that reaches or crosses the target clamps there and advances once, in either direction
(40_envelope_ops R113). -/
theorem stepLevel_of_crossesTarget (hw : inSteppingWindow sv.cfg u = true) (hh : u.holdCount = 0)
    (hc : CrossesTarget sv n u) :
    stepLevel sv n xr u = advance sv (nextPhase u) xr { u with level := u.targetLevel } := by
  rw [stepLevel, if_neg (by simp [hw]), if_neg (by simp [hh])]
  obtain ⟨hr, c, hstep, hle⟩ | ⟨hr, hrange, hle⟩ := hc
  · rw [if_pos hr, stepRising, hstep]
    exact if_pos hle
  · rw [if_neg (by simp [hr]), stepFalling, chk32_of_inRange hrange]
    exact if_pos hle

end

section
variable {s : State} {d : UnitNo}

/-- GETSAMPLE of at least one sample writes its unit and reports the level it leaves (40_envelope_ops R108). -/
theorem exec_getsample_of_sampleUnit {v : EnvUnit} (hf : s.fault = .none) (hd : s.Exists d)
    (hv : (s.unit d).valid = true) (hpos : 0 < s.ports.nValue) (hlt : s.ports.nValue < 2 ^ 31)
    (h : sampleUnit (s.services d) s.ports.nValue s.ports.xrValue (s.unit d) = .ok v) :
    exec (.getsample d) s = .next ((s.setUnit d v).writeResult v.level) := by
  refine attempt_withValid_ok rfl hf hd hv ?_
  rw [if_neg (by omega), if_neg (by omega), h]
  rfl

end

/-- Settles O40 (40_envelope_ops R111): with `n` = 0 the countdown and the batch step are not reached. -/
theorem getsampleOfNoSamples : Obligations.GetsampleOfNoSamples := by
  intro s d hf hd hv hn
  have hzero : s.ports.nValue = 0 := by simp [Ports.nValue, hn]
  refine attempt_withValid_ok rfl hf hd hv ?_
  rw [if_neg (by omega), if_pos hzero]

/-- Settles O45 (40_envelope_ops R113): with no hold, GETSAMPLE is a batch step that crosses the target, whose one
advance ends the phase. -/
theorem getsampleReachesTarget : Obligations.GetsampleReachesTarget := by
  intro s d hf hd hv hpos hlt hw hh hcross hruns
  have hunit : sampleUnit (s.services d) s.ports.nValue s.ports.xrValue (s.unit d)
      = .ok (chained (s.services d) s.ports.xr.toInt
          { s.unit d with level := (s.unit d).targetLevel }) := by
    rw [sampleUnit_of_holdCount_eq_zero hh,
      stepLevel_of_crossesTarget hw hh (hcross.imp_right fun ⟨hr, hlo, hhi, hle⟩ => ⟨hr, ⟨hlo, hhi⟩, hle⟩)]
    exact advance_nextPhase_eq_chained hruns
  simpa using exec_getsample_of_sampleUnit hf hd hv hpos hlt hunit

end Sys2Proof.Machine
end

