-- ==== Sys2Proof/Proofs/UnitWrites.lean ====
section
/-! SUPPORT. Which units a command can change (40_envelope_ops R131): one that completes, the unit it writes; any,
the units it names. -/

namespace Sys2Proof.Machine

variable {s t : State} {i : Instr} {d e : UnitNo}

theorem State.BodyWrites.fault_eq (h : s.BodyWrites t) : t.fault = s.fault := by
  obtain ⟨_, _, _, _, rfl⟩ := h
  rfl

theorem mem_units_of_writtenUnit_eq_some (h : writtenUnit i = some d) : d ∈ i.units := by
  cases i <;> simp_all [writtenUnit, Instr.units]

/-- A command that completes leaves every unit but the one it writes. -/
theorem unit_eq_of_completed (h : exec i s = .next t) (ht : t.fault = .none)
    (he : writtenUnit i ≠ some e) : t.unit e = s.unit e := by
  have hset {d : UnitNo} (u : EnvUnit) (hi : writtenUnit i = some d) :
      (s.setUnit d u).unit e = s.unit e :=
    unit_setUnit_ne s d e u fun hed => he (hed ▸ hi)
  cases i with
  | init d =>
    obtain ⟨v, -, rfl⟩ := init_completed h ht
    exact hset v rfl
  | keydown d g =>
    obtain ⟨-, ⟨-, rfl⟩ | ⟨-, v, -, rfl⟩⟩ := keydown_completed h ht
    · rfl
    · exact hset v rfl
  | getsample d =>
    obtain ⟨-, -, ⟨-, rfl⟩ | ⟨-, v, -, rfl⟩⟩ := getsample_completed h ht
    · rfl
    · exact hset v rfl
  | update d =>
    obtain ⟨-, ⟨-, rfl⟩ | ⟨-, v, -, rfl⟩⟩ := update_completed h ht
    · rfl
    · exact hset v rfl
  | getposition d =>
    obtain ⟨-, rfl⟩ := getposition_completed h ht
    rfl
  | transfer d src =>
    obtain ⟨-, -, rfl⟩ := transfer_completed h ht
    exact hset _ rfl
  | setSampleRate =>
    obtain ⟨-, -, rfl⟩ := setSampleRate_completed h ht
    rfl
  | levelScale =>
    obtain ⟨-, rfl⟩ := levelScale_completed h ht
    rfl
  | advance d k xr =>
    obtain ⟨v, -, rfl⟩ := advance_completed h ht
    exact hset v rfl

/-- Every command, also when it faults, leaves every unit it does not name: a fault frees the named units only
(60_exceptions R206 b). -/
theorem unit_eq_of_not_mem_units (h : exec i s = .next t) (he : e ∉ i.units) :
    t.unit e = s.unit e := by
  obtain ⟨body, hbody, hwrites⟩ := exec_body i s
  obtain ⟨-, rfl⟩ | ⟨-, -, rfl⟩ | ⟨hf, -, hok⟩ | ⟨-, -, r, -, rfl⟩ := attempt_cases (hbody ▸ h)
  · rfl
  · rfl
  · exact unit_eq_of_completed h ((hwrites t hok).fault_eq.trans hf)
      fun hw => he (mem_units_of_writtenUnit_eq_some hw)
  · rw [takeFault_unit, if_neg he]

/-- Settles O22 (40_envelope_ops R131): no command changes a unit it does not name, and of the two units that a
TRANSFER names its completion writes the destination alone. -/
theorem onlyOwnUnitWritten : Obligations.OnlyOwnUnitWritten :=
  ⟨fun _ _ _ _ _ he h => unit_eq_of_not_mem_units h he,
    fun _ _ _ _ _ h ht hne => unit_eq_of_completed h ht fun hw => hne (Option.some.inj hw).symm⟩

end Sys2Proof.Machine
end

/-! SUPPORT. The two ways in which ADVANCE, run as the table's own row (30_encoding R90), completes: into an active
phase and into IDLE (41_advance R142, R150). -/

namespace Sys2Proof.Machine

/-- In a running block ADVANCE replaces its unit by the one it computes. It does not test `valid`, as the commands
that call it do (60_exceptions R202). -/
theorem exec_advance_of_advance_eq_ok {s : State} {d : UnitNo} {k : Fin 5} {xr : Word} {v : EnvUnit}
    (hf : s.fault = .none) (hd : s.Exists d)
    (h : advance (s.services d) k xr.toInt (s.unit d) = .ok v) :
    exec (.advance d k xr) s = .next (s.setUnit d v) := by
  have hwf : (Instr.advance d k xr).wellFormed s.cfg.numInstances = true :=
    wellFormed_iff.2 (by simpa [Instr.units, State.Exists] using hd)
  exact attempt_ok hf hwf (putUnit_ok.2 ⟨v, h, rfl⟩)

/-- Settles O32 (41_advance R140, R142): when its tests pass, ADVANCE to an active phase computes the closed form
`entered`. -/
theorem advanceEntersPhase : Obligations.AdvanceEntersPhase :=
  fun _ _ _ _ hf hd hk hruns => exec_advance_of_advance_eq_ok hf hd (advance_eq_entered hk hruns)

/-- Settles O33 (41_advance R150): ADVANCE to IDLE returns before it reads a parameter, so no test can fail. -/
theorem advanceToIdle : Obligations.AdvanceToIdle :=
  fun s d xr hf hd => exec_advance_of_advance_eq_ok hf hd (advance_idle (s.services d) xr.toInt (s.unit d))

end Sys2Proof.Machine

/-! SUPPORT. The two branches of the level-scaling function (42_level_scaling R170) and what a legal configuration
says of the ends of its table (00_scope R10). -/

namespace Sys2Proof.Machine

section
variable {cfg : Config} {x : Nat}

theorem levelScale_of_lt (h : x < 20) : levelScale cfg x = cfg.levelLut[x] := dif_pos h

theorem levelScale_of_ge (h : 20 ≤ x) : levelScale cfg x = 28 + x := dif_neg (Nat.not_lt.2 h)

theorem levelLut_ends_of_legal (h : cfg.legal = true) : cfg.levelLut[0] = 0 ∧ cfg.levelLut[19] = 46 := by
  simp only [Config.legal, Bool.and_eq_true, decide_eq_true_eq] at h
  obtain ⟨⟨⟨⟨⟨-, hfirst⟩, hlast⟩, -⟩, -⟩, -⟩ := h
  exact ⟨hfirst, hlast⟩

end

/-- Settles O58 (42_level_scaling R173): 0 and 19 are the ends of the table, which every legal configuration fixes;
20 and 127 take the formula. -/
theorem levelScaleBoundaries : Obligations.LevelScaleBoundaries := by
  intro cfg hlegal
  obtain ⟨hfirst, hlast⟩ := levelLut_ends_of_legal hlegal
  exact ⟨(levelScale_of_lt (by decide)).trans hfirst, (levelScale_of_lt (by decide)).trans hlast,
    levelScale_of_ge (by decide), levelScale_of_ge (by decide)⟩

end Sys2Proof.Machine

/-! SUPPORT. The stopped block (60_exceptions R208): first what a step does with the host's next event, then what a
stopped block answers to each kind of event. -/

namespace Sys2Proof.Machine

section
variable {s : State} {e : HostEvent} {rest : List HostEvent}

/-- A step takes the host's next event and handles it (00_scope R6). -/
theorem step_of_inbox_eq_cons (h : s.inbox = e :: rest) : step s = handle e { s with inbox := rest } := by
  simp [step, issue, h]

theorem step_of_inbox_eq_nil (h : s.inbox = []) : step s = .next s := by
  simp [step, issue, h]

/-- A stopped block does not even decode a presented word. -/
theorem present_stopped (c : Command) (hf : s.fault ≠ .none) : present c s = .next s := by
  unfold present
  split
  · contradiction
  · rfl

/-- A stopped block ignores a forbidden overlap as well: it raises no F_RACE. -/
theorem presentOverlap_stopped (cs : List Command) (hf : s.fault ≠ .none) :
    presentOverlap cs s = .next s := by
  unfold presentOverlap
  split
  · contradiction
  · rfl

end

/-- Settles O10 (60_exceptions R208): the test of FAULT comes before the decoder, before the test for a forbidden
pair and before every command's body; the reset event alone is not behind it. -/
theorem stoppedBlockIgnores : Obligations.StoppedBlockIgnores := by
  intro s hstopped
  refine ⟨fun c rest h => ?_, fun cs rest h => ?_, fun rest h => ?_, step_of_inbox_eq_nil,
    fun i => exec_stopped i hstopped⟩
  · exact (step_of_inbox_eq_cons h).trans (present_stopped c hstopped)
  · exact (step_of_inbox_eq_cons h).trans (presentOverlap_stopped cs hstopped)
  · exact ⟨_, step_of_inbox_eq_cons h, hardReset_fault _⟩

end Sys2Proof.Machine

/-! SUPPORT. F_UNINIT (60_exceptions R202): the commands that test `valid` raise it, and ADVANCE, which does not test
it, raises other reasons only. One lemma per test of ADVANCE says which reason it gives (60_exceptions R203, R204). -/

namespace Sys2Proof.Machine

/-! ### The reasons ADVANCE raises (41_advance R140) -/

section
variable {sv : Services} {k : Fin 5} {xr : Int} {u : EnvUnit} {r : FaultReason}

theorem target_error {cfg : Config} {l : Nat} {ol : Int} (h : target cfg l ol = .error r) :
    r = .overflow := by
  unfold target at h
  split at h
  · cases h
    exact (chk32_error.1 ‹_›).1
  · exact (chk32_error.1 h).1

theorem clampRate_error {q : Int} (h : clampRate q = .error r) : r = .rateCode := by
  unfold clampRate at h
  split at h <;> cases h
  rfl

theorem holdSet_error {rate l : Nat} {t : Int} (h : holdSet sv u k rate l t xr = .error r) :
    r = .rateCode ∨ r = .overflow := by
  unfold holdSet at h
  split at h
  · cases h
  · simp only at h
    split at h
    · cases h; exact .inl rfl
    · exact .inr (chk32_error.1 h).1

theorem advanceHold_error {rate l : Nat} {t : Int} (h : advanceHold sv u k rate l t xr = .error r) :
    r = .rateCode ∨ r = .overflow := by
  unfold advanceHold at h
  split at h
  · cases h
  · cases hs : holdSet sv u k rate l t xr with
    | ok w => rw [hs] at h; cases h
    | error r' => rw [hs] at h; cases h; exact holdSet_error hs

/-- Every reason ADVANCE can raise, in the order of its tests (60_exceptions R209 c). -/
theorem advance_error (h : advance sv k xr u = .error r) :
    r = .paramRange ∨ r = .overflow ∨ r = .rateCode := by
  unfold advance at h
  split at h
  · cases h
  simp only at h
  split at h
  · cases h; exact .inl rfl
  split at h
  · cases h; exact .inr (.inl (target_error ‹_›))
  split at h
  · cases h; exact .inr (.inr (clampRate_error ‹_›))
  split at h
  · cases h; exact .inr (advanceHold_error ‹_›).symm
  · cases h

end

/-! ### What raises F_UNINIT -/

section
variable {s t : State} {d e : UnitNo} {r : FaultReason} {i : Instr} {body : Except FaultReason State}

theorem putUnit_eq_error_iff {x : Except FaultReason EnvUnit} :
    s.putUnit d x = .error r ↔ x = .error r := by
  cases x <;> simp

/-- A fault that a running block shows after a command was raised by the command's body: a refusal writes another
status, and a completed body writes no FAULT. -/
theorem attempt_raised (h : s.attempt i body = .next t) (hf : s.fault = .none)
    (ht : t.fault = .fault r) (hwrites : ∀ t, body = .ok t → s.BodyWrites t) : body = .error r := by
  obtain ⟨hstopped, -⟩ | ⟨-, -, rfl⟩ | ⟨-, -, hok⟩ | ⟨-, -, r', herr, rfl⟩ := attempt_cases h
  · exact absurd hf hstopped
  · simp [hf] at ht
  · simp [(hwrites t hok).fault_eq, hf] at ht
  · have : r' = r := by simpa [hf] using ht
    exact this ▸ herr

/-- INIT raises only what its ADVANCE raises (40_envelope_ops R100). -/
theorem init_raised (h : exec (.init d) s = .next t) (hf : s.fault = .none) (ht : t.fault = .fault r) :
    r = .paramRange ∨ r = .overflow ∨ r = .rateCode :=
  advance_error (putUnit_eq_error_iff.1 (attempt_raised h hf ht fun _ => bodyWrites_of_putUnit))

/-- TRANSFER from a valid unit can only meet a destination of the other mode (60_exceptions R204). -/
theorem transfer_raised (h : exec (.transfer d e) s = .next t) (hf : s.fault = .none)
    (hv : (s.unit e).valid = true) (ht : t.fault = .fault r) : r = .modeMismatch := by
  have herr := attempt_raised h hf ht fun t hok => by
    obtain ⟨-, hb⟩ := withValid_ok hok
    split at hb <;> cases hb
    exact bodyWrites_setUnit s d _
  rw [withValid_valid hv] at herr
  split at herr <;> cases herr
  rfl

/-- Each of the five commands that test the unit `d` is the fault F_UNINIT where `d` is not valid
(60_exceptions R202). -/
theorem exec_of_invalid (hf : s.fault = .none) (hw : i.wellFormed s.cfg.numInstances = true)
    (hv : (s.unit d).valid = false)
    (htests : (∃ g, i = .keydown d g) ∨ i = .getsample d ∨ i = .update d ∨ i = .getposition d
      ∨ ∃ e, i = .transfer e d) :
    exec i s = .next (s.takeFault i.units .uninit) := by
  obtain ⟨g, rfl⟩ | rfl | rfl | rfl | ⟨e, rfl⟩ := htests
  all_goals exact attempt_error hf hw (withValid_invalid hv)

end

/-- Settles O26 (60_exceptions R202): the five commands test `valid` before their own work, and the fault they take
frees the named units alone; INIT and TRANSFER from a valid unit raise other reasons only. -/
theorem uninitialisedUnitFaults : Obligations.UninitialisedUnitFaults := by
  refine ⟨fun s i d hf hw hv htests => ?_, fun s t d hf h ht => ?_, fun s t d e hf hv h ht => ?_⟩
  · exact ⟨_, exec_of_invalid hf hw hv htests, by simp [hf], takeFault_cal .., takeFault_cfg ..,
      takeFault_ports .., takeFault_inbox .., fun e he => (takeFault_unit ..).trans (if_neg he)⟩
  · simpa using init_raised h hf ht
  · simpa using transfer_raised h hf hv ht

end Sys2Proof.Machine

/-! SUPPORT. Reset (70_reset_and_hazards R230): what the host can read of the block after the reset event. -/

namespace Sys2Proof.Machine

section
variable (s : State) (d : UnitNo)

/-- The reset state is a fixed point of the reset event, so what the event leaves holds of the reset state too. -/
theorem hardReset_reset : State.reset.hardReset = State.reset := rfl

theorem hardReset_unit_valid : (s.hardReset.unit d).valid = false :=
  congrArg EnvUnit.valid (hardReset_unit s d)

end

/-- The host's read before any command has written RESULT is a fault of the observation (10_state R45). -/
theorem readResult_of_unwritten {s : State} (h : s.resultWritten = false) :
    s.readResult = .error .resultUnwritten := by
  simp [State.readResult, h]

/-- What R230 says of the values after the reset event, in every state. -/
theorem hardReset_specValues (s : State) :
    (∀ d, (s.hardReset.unit d).valid = false) ∧ s.hardReset.cal = 16777216#32 ∧ s.hardReset.fault = .none
      ∧ s.hardReset.readResult = .error .resultUnwritten :=
  ⟨hardReset_unit_valid s, hardReset_cal s, hardReset_fault s,
    readResult_of_unwritten (hardReset_resultWritten s)⟩

/-- Settles O13 (70_reset_and_hazards R230): a step answers the reset event without a test of FAULT, by the state
whose values `hardReset_specValues` lists; the reset state is such a state. -/
theorem resetLeavesSpecValues : Obligations.ResetLeavesSpecValues := by
  refine ⟨hardReset_reset ▸ hardReset_specValues State.reset, fun s rest h => ?_⟩
  have hstep : step s = .next { s with inbox := rest }.hardReset := step_of_inbox_eq_cons h
  obtain ⟨hvalid, hcal, hfault, hresult⟩ := hardReset_specValues { s with inbox := rest }
  exact ⟨_, hstep, hvalid, hcal, hfault, hresult, hardReset_cfg _, hardReset_inbox _⟩

end Sys2Proof.Machine

/-! SUPPORT. TRANSFER between two units of one mode (40_envelope_ops R127). -/

namespace Sys2Proof.Machine

/-- Settles O54 (40_envelope_ops R127, 70_reset_and_hazards R234): TRANSFER tests that both units exist, that the
source is valid and that the modes agree; no test reads the destination's fields, which the body then replaces. -/
theorem transferCopiesUnit : Obligations.TransferCopiesUnit := by
  intro s d e hf hd he hv hmode
  have hwf : (Instr.transfer d e).wellFormed s.cfg.numInstances = true :=
    wellFormed_iff.2 (by simpa [Instr.units] using ⟨hd, he⟩)
  exact attempt_ok hf hwf ((withValid_valid hv).trans (if_neg (not_not_intro hmode)))

end Sys2Proof.Machine

/-! SUPPORT. The decoder and the encoder against each other (30_encoding R82, R83): the fields of an encoded word,
the word rebuilt from its fields, and what a decoded word says. -/

namespace Sys2Proof

section
variable {w mask : Word} {op op' : BitVec 4} {i : Instr} {n : Nat}

/-! ### The fields of an encoded word (30_encoding R81) -/

@[simp] theorem dstField_or_dst (op : BitVec 4) (d : UnitNo) :
    dstField (op.setWidth 32 ||| d.setWidth 32 <<< 8) = d := by
  ext j hj
  simp only [dstField]
  interval_cases j <;> simp

@[simp] theorem opField_keydownWord (d : UnitNo) (g : Bool) :
    opField (0x00000002#32 ||| (BitVec.ofBool g).setWidth 32 <<< 4 ||| d.setWidth 32 <<< 8) = 2#4 := by
  ext j hj
  simp only [opField]
  interval_cases j <;> simp

@[simp] theorem dstField_keydownWord (d : UnitNo) (g : Bool) :
    dstField (0x00000002#32 ||| (BitVec.ofBool g).setWidth 32 <<< 4 ||| d.setWidth 32 <<< 8) = d := by
  ext j hj
  simp only [dstField]
  interval_cases j <;> simp

@[simp] theorem gField_keydownWord (d : UnitNo) (g : Bool) :
    gField (0x00000002#32 ||| (BitVec.ofBool g).setWidth 32 <<< 4 ||| d.setWidth 32 <<< 8) = g := by
  simp [gField]

@[simp] theorem opField_transferWord (d e : UnitNo) :
    opField (0x00000006#32 ||| d.setWidth 32 <<< 8 ||| e.setWidth 32 <<< 16) = 6#4 := by
  ext j hj
  simp only [opField]
  interval_cases j <;> simp

@[simp] theorem dstField_transferWord (d e : UnitNo) :
    dstField (0x00000006#32 ||| d.setWidth 32 <<< 8 ||| e.setWidth 32 <<< 16) = d := by
  ext j hj
  simp only [dstField]
  interval_cases j <;> simp

@[simp] theorem srcField_transferWord (d e : UnitNo) :
    srcField (0x00000006#32 ||| d.setWidth 32 <<< 8 ||| e.setWidth 32 <<< 16) = e := by
  ext j hj
  simp only [srcField]
  interval_cases j <;> simp

/-- The row of an encoded word reads the command back (30_encoding R82). -/
theorem rowInstr_of_encode (h : encode i = some w) : rowInstr (opField w) w = some i := by
  have dstRow (op : BitVec 4) (d : UnitNo) (f : UnitNo → Instr)
      (hrow : ∀ v, rowInstr op v = some (f (dstField v))) :
      rowInstr (opField (op.setWidth 32 ||| d.setWidth 32 <<< 8))
        (op.setWidth 32 ||| d.setWidth 32 <<< 8) = some (f d) := by
    rw [Laws.Encoding.opField_dst, hrow, dstField_or_dst]
  cases i <;> cases h
  case init d => exact dstRow 1 d .init fun _ => rfl
  case getsample d => exact dstRow 3 d .getsample fun _ => rfl
  case update d => exact dstRow 4 d .update fun _ => rfl
  case getposition d => exact dstRow 5 d .getposition fun _ => rfl
  case keydown d g => simp [rowInstr]
  case transfer d e => simp [rowInstr]
  case setSampleRate => rfl
  case levelScale => rfl

/-- An encoded word satisfies the row of its opcode (30_encoding R83). -/
theorem rowMask_of_encode (h : encode i = some w) :
    ∃ mask, rowMask (opField w) = some mask ∧ w &&& mask = rowMatch (opField w) := by
  cases i with
  | init d => exact Laws.Encoding.init d w h
  | keydown d g => exact Laws.Encoding.keydown d g w h
  | getsample d => exact Laws.Encoding.getsample d w h
  | update d => exact Laws.Encoding.update d w h
  | getposition d => exact Laws.Encoding.getposition d w h
  | transfer d e => exact Laws.Encoding.transfer d e w h
  | setSampleRate => exact Laws.Encoding.setSampleRate w h
  | levelScale => exact Laws.Encoding.levelScale w h
  | advance d k xr => exact Laws.Encoding.advance d k xr w h

/-! ### A word from its fields -/

/-- A word is its fixed bits and its field bits. -/
theorem and_or_and_not (w mask : Word) : (w &&& mask) ||| (w &&& ~~~mask) = w := by
  rw [← BitVec.and_or_distrib_left, BitVec.or_not_self, BitVec.and_allOnes]

theorem dst_bits (w : Word) : w &&& ~~~0xFFFF00FF#32 = (dstField w).setWidth 32 <<< 8 := by
  ext j hj
  simp only [dstField]
  interval_cases j <;> simp

theorem gate_dst_bits (w : Word) : w &&& ~~~0xFFFF00EF#32
    = (BitVec.ofBool (gField w)).setWidth 32 <<< 4 ||| (dstField w).setWidth 32 <<< 8 := by
  ext j hj
  simp only [dstField, gField]
  interval_cases j <;> simp

theorem dst_src_bits (w : Word) : w &&& ~~~0xFF0000FF#32
    = (dstField w).setWidth 32 <<< 8 ||| (srcField w).setWidth 32 <<< 16 := by
  ext j hj
  simp only [dstField, srcField]
  interval_cases j <;> simp

/-- A word whose fixed bits are its row's is the encoding of the row's command: the mask covers every bit that is
no field (30_encoding R82, R83). -/
theorem encode_of_row (hmask : rowMask op = some mask) (hinstr : rowInstr op w = some i)
    (hfixed : w &&& mask = rowMatch op) : encode i = some w := by
  rw [← and_or_and_not w mask, hfixed]
  obtain ⟨⟨k, hk⟩⟩ := op
  interval_cases k <;> cases hmask <;> cases hinstr
  · rw [dst_bits]; rfl
  · rw [gate_dst_bits, ← BitVec.or_assoc]; rfl
  · rw [dst_bits]; rfl
  · rw [dst_bits]; rfl
  · rw [dst_bits]; rfl
  · rw [dst_src_bits, ← BitVec.or_assoc]; rfl
  · simp [encode, rowMatch]
  · simp [encode, rowMatch]

/-! ### What the decoder accepts -/

/-- The decoder accepts the words that pass its three tests (30_encoding R87). -/
theorem decode_eq_ok_iff : decode n w = .ok i ↔
    ∃ mask, rowMask (opField w) = some mask ∧ rowInstr (opField w) w = some i
      ∧ w &&& mask = rowMatch (opField w) ∧ i.wellFormed n = true := by
  unfold decode
  split
  · rename_i mask j hmask hinstr
    constructor
    · intro h
      split at h
      · split at h
        · cases h; exact ⟨mask, hmask, hinstr, ‹_›, ‹_›⟩
        · cases h
      · cases h
    · rintro ⟨mask', hmask', hinstr', hfixed, hwf⟩
      cases hmask.symm.trans hmask'
      cases hinstr.symm.trans hinstr'
      rw [if_pos hfixed, if_pos hwf]
  · rename_i hnone
    simp only [reduceCtorEq, false_iff]
    rintro ⟨mask, hmask, hinstr, -⟩
    exact hnone mask i hmask hinstr

theorem encode_of_decode (h : decode n w = .ok i) : encode i = some w := by
  obtain ⟨mask, hmask, hinstr, hfixed, -⟩ := decode_eq_ok_iff.1 h
  exact encode_of_row hmask hinstr hfixed

theorem wellFormed_of_decode (h : decode n w = .ok i) : i.wellFormed n = true := by
  obtain ⟨-, -, -, -, hwf⟩ := decode_eq_ok_iff.1 h
  exact hwf

theorem encode_eq_none_iff : encode i = none ↔ ∃ d k xr, i = .advance d k xr := by
  cases i <;> simp [encode]

/-- No decoded word runs ADVANCE (30_encoding R90). -/
theorem ne_advance_of_decode (h : decode n w = .ok i) (d : UnitNo) (k : Fin 5) (xr : Word) :
    i ≠ .advance d k xr := by
  rintro rfl
  cases encode_of_decode h

/-- Every mask covers the opcode (30_encoding R82). -/
theorem rowMask_covers_opField (h : rowMask op = some mask) : mask &&& 0xF#32 = 0xF#32 := by
  unfold rowMask at h
  split at h <;> cases h <;> rfl

/-- A word that matches a row has the row's opcode (30_encoding R88). -/
theorem opField_of_row (hmask : rowMask op = some mask) (hfixed : w &&& mask = rowMatch op) :
    opField w = op := by
  have hop : w &&& 0xF#32 = rowMatch op := by
    rw [← rowMask_covers_opField hmask, ← BitVec.and_assoc, hfixed]
    ext j hj
    simp only [rowMatch]
    interval_cases j <;> simp
  have hbits (j : Nat) (hj : j < 4) : w.getLsbD j = op.getLsbD j := by
    have := congrArg (fun v => v.getLsbD j) hop
    interval_cases j <;> simpa [rowMatch] using this
  ext j hj
  simpa [opField, ← BitVec.getLsbD_eq_getElem, hj] using hbits j hj

end

/-- Settles O1 (30_encoding R82, R87): the word that the encoder writes passes the mask test of its row, the row
reads the command back, and the unit test is the command's well-formedness. -/
theorem encodedCommandsDecode : Obligations.EncodedCommandsDecode := by
  intro n i w hwf hword
  obtain ⟨mask, hmask, hfixed⟩ := rowMask_of_encode hword
  exact decode_eq_ok_iff.2 ⟨mask, hmask, rowInstr_of_encode hword, hfixed, hwf⟩

/-- Settles O2 (30_encoding R83, R90): the mask of a row leaves only the bits of the fields free, and the row's
command holds those. -/
theorem decodedWordsEncode : Obligations.DecodedWordsEncode :=
  ⟨fun _ _ _ h => ⟨encode_of_decode h, wellFormed_of_decode h⟩, fun _ => encode_eq_none_iff⟩

/-- Settles O3 (30_encoding R88): a row that a word matches fixes the word's opcode. -/
theorem atMostOneRowMatches : Obligations.AtMostOneRowMatches :=
  ⟨fun _ _ _ _ _ hmask hmask' hfixed hfixed' =>
    (opField_of_row hmask hfixed).symm.trans (opField_of_row hmask' hfixed'),
    fun _ _ => rowMask_covers_opField⟩

/-- Settles O5 (30_encoding R93): fourteen fixed words, evaluated. -/
theorem workedEncodings : Obligations.WorkedEncodings := by
  unfold Obligations.WorkedEncodings
  decide

end Sys2Proof

/-! SUPPORT. What every step keeps: a property of states that each part of a step keeps is kept by the step. Then
the invariants of 10_state R48: first for the parts of one unit's work, then for each command. -/

namespace Sys2Proof.Machine

/-! ### Properties that every step keeps -/

/-- A property of states that every command with a word keeps, and that the block's other work keeps: latching
ports, taking an event and counting a free value, a refusal, a race and a reset. -/
structure StepInvariant (P : State → Prop) : Prop where
  exec : ∀ {i : Instr} {s t : State}, (∀ d k xr, i ≠ .advance d k xr) → P s → exec i s = .next t → P t
  bookkeeping : ∀ {s : State} (p : Ports) (l : List HostEvent) (n : Nat), P s →
    P { s with ports := p, inbox := l, freeCount := n }
  refusal : ∀ {s : State} (x : RefusalReason), P s → P (s.takeRefusal x)
  race : ∀ {s : State}, s.fault = .none → P s → P s.takeRace
  reset : ∀ {s : State}, P s → P s.hardReset

section
variable {P : State → Prop} {s t : State}

theorem StepInvariant.present (hP : StepInvariant P) {c : Command} (hs : P s)
    (h : present c s = .next t) : P t := by
  unfold Machine.present at h
  split at h
  · split at h
    · cases h; exact hP.refusal _ hs
    · rename_i hdecode
      exact hP.exec (ne_advance_of_decode hdecode) (hP.bookkeeping c.ports s.inbox s.freeCount hs) h
  · cases h; exact hs

theorem StepInvariant.runInSomeOrder (hP : StepInvariant P) {k : Nat} {cs : List Command} (hs : P s)
    (h : runInSomeOrder k cs s = .next t) : P t := by
  induction k generalizing cs s with
  | zero => cases h; exact hs
  | succ k ih =>
    unfold Machine.runInSomeOrder at h
    split at h
    · cases h; exact hs
    · obtain ⟨m, hfirst, hrest⟩ := andThen_eq_next h
      exact ih (hP.present (hP.bookkeeping s.ports s.inbox (s.freeCount + 1) hs) hfirst) hrest

theorem StepInvariant.presentOverlap (hP : StepInvariant P) {cs : List Command} (hs : P s)
    (h : presentOverlap cs s = .next t) : P t := by
  unfold Machine.presentOverlap at h
  split at h
  · rename_i hf
    split at h
    · cases h; exact hP.race hf hs
    · exact hP.runInSomeOrder hs h
  · cases h; exact hs

theorem StepInvariant.step (hP : StepInvariant P) (hs : P s) (h : step s = .next t) : P t := by
  cases hin : s.inbox with
  | nil => rw [step_of_inbox_eq_nil hin] at h; cases h; exact hs
  | cons e rest =>
    rw [step_of_inbox_eq_cons hin] at h
    have hs' := hP.bookkeeping s.ports rest s.freeCount hs
    cases e with
    | command c => exact hP.present hs' h
    | overlap cs => exact hP.presentOverlap hs' h
    | reset => cases h; exact hP.reset hs'

end

/-! ### The invariants of one unit (10_state R48) -/

section
variable {sv : Services} {m : Mode} {n : Nat} {k : Fin 5} {xr : Int} {u v : EnvUnit}

theorem inRange_of_target {cfg : Config} {l : Nat} {ol t : Int} (h : target cfg l ol = .ok t) : InRange t := by
  have := target_bounds h
  unfold InRange
  omega

/-- The hold count that ADVANCE leaves is the unit's own or not negative, and the unit's own in a STANDARD unit
(41_advance R149). -/
theorem advanceHold_ok {r l : Nat} {t : Int} {w : Word} (h : advanceHold sv u k r l t xr = .ok w) :
    (sv.mode = .standard ∧ w = u.holdCount) ∨ (sv.mode = .accurate ∧ 0 ≤ w.toInt) := by
  unfold advanceHold at h
  split at h
  · exact .inl ⟨‹_›, by simpa using h.symm⟩
  · cases hs : holdSet sv u k r l t xr with
    | error e => rw [hs] at h; cases h
    | ok a =>
      rw [hs] at h
      cases h
      obtain ⟨hlo, hhi⟩ := holdSet_range hs
      exact .inr ⟨‹_›, by rw [toInt_ofValue ⟨by omega, hhi⟩]; exact hlo⟩

/-- The register value of an active phase (10_state R35). -/
theorem toNat_phase (k : Fin 5) : (BitVec.ofNat 3 k.val).toNat = k.val := by
  simp only [BitVec.toNat_ofNat]
  omega

/-- Entering an active phase makes a unit good whatever it held, but for the hold of a STANDARD unit, which it
keeps (41_advance R140, R149). -/
theorem unitGood_of_advance_active (hk : k ≠ 4) (hstandard : sv.mode = .standard → u.holdCount = 0)
    (h : advance sv k xr u = .ok v) : UnitGood sv.mode v := by
  obtain ⟨rfl, -⟩ | ⟨-, -, -, t, q, w, ht, hq, hw, rfl⟩ := advance_ok h
  · exact absurd rfl hk
  have hne : BitVec.ofNat 3 k.val ≠ 4 := by
    intro hc
    have hval := congrArg BitVec.toNat hc
    rw [toNat_phase] at hval
    exact hk (Fin.ext hval)
  have hinc : 0 ≤ (BitVec.ofNat 32 (inc sv.cal q)).toInt := by
    rw [toInt_inc (clampRate_le hq)]
    exact Int.natCast_nonneg _
  have htarget : 1048576 ≤ (ofValue t).toInt := by
    rw [toInt_ofValue (inRange_of_target ht)]
    exact (target_bounds ht).1
  have hphase : (BitVec.ofNat 3 k.val).toNat ≤ 4 := by
    rw [toNat_phase]
    omega
  obtain ⟨hm, rfl⟩ | ⟨hm, hnonneg⟩ := advanceHold_ok hw
  · exact ⟨hphase, fun hc => absurd hc hne, hstandard, by simp [hstandard hm], htarget, hinc⟩
  · exact ⟨hphase, fun hc => absurd hc hne, fun hc => by simp [hm] at hc, hnonneg, htarget, hinc⟩

/-- A good unit with no hold stays good through any ADVANCE: one to IDLE writes the phase alone (41_advance
R150). -/
theorem UnitGood.advance (hu : UnitGood sv.mode u) (hh : u.holdCount = 0)
    (h : advance sv k xr u = .ok v) : UnitGood sv.mode v := by
  by_cases hk : k = 4
  · subst hk
    cases h
    exact ⟨by simp, fun _ => hh, fun _ => hh, hu.hold_nonneg, hu.target_floor, hu.increment_nonneg⟩
  · exact unitGood_of_advance_active hk (fun _ => hh) h

/-- No invariant of R48 reads the level. -/
theorem UnitGood.withLevel (hu : UnitGood m u) (l : Word) : UnitGood m { u with level := l } :=
  ⟨hu.phase, hu.hold_idle, hu.hold_standard, hu.hold_nonneg, hu.target_floor, hu.increment_nonneg⟩

/-- The hold countdown keeps the invariants (40_envelope_ops R110). -/
theorem UnitGood.countHold (hu : UnitGood sv.mode u) (h : countHold sv n xr u = .ok v) :
    UnitGood sv.mode v := by
  obtain ⟨-, rfl⟩ | ⟨-, -, -, hadvance⟩ | ⟨hm, hne, hlt, rfl⟩ := countHold_ok h
  · exact hu
  · have hzero : UnitGood sv.mode { u with holdCount := 0 } :=
      ⟨hu.phase, fun _ => rfl, fun _ => rfl, by simp, hu.target_floor, hu.increment_nonneg⟩
    exact hzero.advance rfl hadvance
  · have hle := (inRange_toInt u.holdCount).2
    have hleft : 0 ≤ (ofValue (u.holdCount.toInt - n)).toInt := by
      rw [toInt_ofValue ⟨by omega, by omega⟩]
      omega
    exact ⟨hu.phase, fun hp => absurd (hu.hold_idle hp) hne, fun hc => by simp [hm] at hc, hleft,
      hu.target_floor, hu.increment_nonneg⟩

/-- The batch step keeps the invariants: it advances only with no hold running (40_envelope_ops R109, R113). -/
theorem UnitGood.stepLevel (hu : UnitGood sv.mode u) (h : stepLevel sv n xr u = .ok v) :
    UnitGood sv.mode v := by
  obtain ⟨rfl, -⟩ | ⟨-, hh, hadvance⟩ | ⟨-, -, -, c, -, -, rfl⟩ | ⟨-, -, -, -, -, rfl⟩ := stepLevel_ok h
  · exact hu
  · exact (hu.withLevel u.targetLevel).advance hh hadvance
  · exact hu.withLevel _
  · exact hu.withLevel _

theorem UnitGood.sampleUnit (hu : UnitGood sv.mode u) (h : sampleUnit sv n xr u = .ok v) :
    UnitGood sv.mode v := by
  obtain ⟨w, hcount, hstep⟩ := sampleUnit_ok h
  exact (hu.countHold hcount).stepLevel hstep

end

/-! ### The invariants of the unit bank -/

section
variable {s t : State} {d : UnitNo} {i : Instr}

theorem running_of_completed (h : exec i s = .next t) (ht : t.fault = .none) : s.fault = .none := by
  by_contra hf
  rw [exec_stopped i hf] at h
  cases h
  exact hf ht

theorem good_of_stopped (h : s.fault ≠ .none) : s.Good := fun hf => absurd hf h

theorem State.Good.setUnit (hs : s.Good) {u : EnvUnit} (hu : UnitGood (s.mode d) u) :
    (s.setUnit d u).Good := by
  intro hf e hv
  by_cases he : e = d
  · subst he
    simpa using hu
  · rw [unit_setUnit_ne s d e u he] at hv ⊢
    exact hs hf e hv

/-- Every command with a word keeps the invariants when it completes: what it writes to a unit is good. ADVANCE
alone need not: it can enter IDLE with a hold running. -/
theorem State.Good.completed (hs : s.Good) (hi : ∀ d k xr, i ≠ .advance d k xr)
    (h : exec i s = .next t) (ht : t.fault = .none) : t.Good := by
  have hf := running_of_completed h ht
  cases i with
  | init d =>
    obtain ⟨v, hv, rfl⟩ := init_completed h ht
    exact hs.setUnit (unitGood_of_advance_active (by decide) (fun _ => rfl) hv)
  | keydown d g =>
    obtain ⟨hvalid, ⟨-, rfl⟩ | ⟨-, v, hv, rfl⟩⟩ := keydown_completed h ht
    · exact hs
    · exact hs.setUnit
        (unitGood_of_advance_active (gatePhase_ne_idle g) (hs hf d hvalid).hold_standard hv)
  | getsample d =>
    obtain ⟨hvalid, -, ⟨-, rfl⟩ | ⟨-, v, hv, rfl⟩⟩ := getsample_completed h ht
    · exact hs
    · exact hs.setUnit ((hs hf d hvalid).sampleUnit (sv := s.services d) hv)
  | update d =>
    obtain ⟨hvalid, ⟨-, rfl⟩ | ⟨-, v, hv, rfl⟩⟩ := update_completed h ht
    · exact hs
    · exact hs.setUnit (unitGood_of_advance_active (by decide) (hs hf d hvalid).hold_standard hv)
  | getposition d =>
    obtain ⟨-, rfl⟩ := getposition_completed h ht
    exact hs
  | transfer d e =>
    obtain ⟨hvalid, hmode, rfl⟩ := transfer_completed h ht
    exact hs.setUnit (hmode ▸ hs hf e hvalid)
  | setSampleRate =>
    obtain ⟨-, -, rfl⟩ := setSampleRate_completed h ht
    exact hs
  | levelScale =>
    obtain ⟨-, rfl⟩ := levelScale_completed h ht
    exact hs
  | advance d k xr => exact absurd rfl (hi d k xr)

theorem good_of_noUnitValid (h : ∀ d, (s.unit d).valid = false) : s.Good :=
  fun _ d hv => by simp [h d] at hv

theorem stepInvariant_good : StepInvariant State.Good where
  exec {i s t} hi hs h := by
    by_cases ht : t.fault = .none
    · exact hs.completed hi h ht
    · exact good_of_stopped ht
  bookkeeping _ _ _ hs := hs
  refusal _ _ := good_of_stopped (latch_ne_none _ _ (by simp))
  race _ _ := good_of_stopped (latch_ne_none _ _ (by simp))
  reset _ := good_of_noUnitValid (hardReset_unit_valid _)

end

/-- Settles O18 (10_state R48): the invariants are a `StepInvariant`. A phase is left with no hold running, entering
an active one computes a target above the floor and a non-negative increment, and a fault leaves nothing to show. -/
theorem stepKeepsUnitsGood : Obligations.StepKeepsUnitsGood :=
  fun _ _ => stepInvariant_good.step

/-- Settles O19 (10_state R50): after reset no unit is valid. -/
theorem resetUnitsGood : Obligations.ResetUnitsGood :=
  good_of_noUnitValid fun d => congrArg EnvUnit.valid (reset_unit d)

end Sys2Proof.Machine

/-! SUPPORT. What a command can leave, with the reasons it can raise (60_exceptions R200, R206): the building blocks
of a command's body, put together once per command. Then the frames that follow for `CAL`, for the voice fields and
for the level, and that every step answers a next state. -/

namespace Sys2Proof.Machine

/-! ### Bodies that write units, `CAL` and `RESULT` alone and raise no F_RACE -/

/-- A body that, when it completes, writes units, `CAL` and `RESULT` alone and that never raises F_RACE, which only
overlapping commands do (60_exceptions R205). -/
structure OrdinaryBody (s : State) (body : Except FaultReason State) : Prop where
  writes : ∀ t, body = .ok t → s.BodyWrites t
  noRace : ∀ r, body = .error r → r ≠ .race

section
variable {s t : State} {d e : UnitNo} {i : Instr} {r : FaultReason}

theorem ordinaryBody_ok (h : s.BodyWrites t) : OrdinaryBody s (.ok t) :=
  ⟨fun _ ht => (by cases ht; exact h), fun _ hr => (by cases hr)⟩

theorem ordinaryBody_error (h : r ≠ .race) : OrdinaryBody s (.error r) :=
  ⟨fun _ ht => (by cases ht), fun _ hr => (by cases hr; exact h)⟩

theorem ordinaryBody_ite {c : Prop} [Decidable c] {a b : Except FaultReason State}
    (ha : OrdinaryBody s a) (hb : OrdinaryBody s b) : OrdinaryBody s (if c then a else b) := by
  split <;> assumption

theorem ordinaryBody_withValid {f : EnvUnit → Except FaultReason State} (h : OrdinaryBody s (f (s.unit d))) :
    OrdinaryBody s (s.withValid d f) :=
  ordinaryBody_ite h (ordinaryBody_error (by decide))

theorem ordinaryBody_putUnit {x : Except FaultReason EnvUnit} (h : ∀ r, x = .error r → r ≠ .race) :
    OrdinaryBody s (s.putUnit d x) :=
  ⟨fun _ => bodyWrites_of_putUnit, fun r hr => h r (putUnit_eq_error_iff.1 hr)⟩

end

/-! ### GETSAMPLE and ADVANCE raise no F_RACE -/

section
variable {sv : Services} {n : Nat} {k : Fin 5} {xr : Int} {u : EnvUnit} {r : FaultReason}

theorem advance_noRace (h : advance sv k xr u = .error r) : r ≠ .race := by
  obtain rfl | rfl | rfl := advance_error h <;> decide

theorem riseStep_error {rule : RiseStepRule} {level inc m : Int} (h : riseStep rule level inc m = .error r) :
    r = .overflow := by
  unfold riseStep at h
  split at h
  · unfold referenceRiseStep at h
    simp only at h
    split at h
    · cases h; exact (chk32_error.1 ‹_›).1
    · exact (chk32_error.1 h).1
  · unfold plainRiseStep at h
    split at h
    · cases h; exact (chk32_error.1 ‹_›).1
    · exact (chk32_error.1 h).1
  · split at h
    · exact (chk32_error.1 h).1
    · cases h; rfl

theorem countHold_noRace (h : countHold sv n xr u = .error r) : r ≠ .race := by
  unfold countHold at h
  split at h
  · split at h
    · exact advance_noRace h
    · cases h
  · cases h

theorem stepRising_noRace (h : stepRising sv n xr u = .error r) : r ≠ .race := by
  unfold stepRising at h
  split at h
  · rename_i hrise
    cases h
    rw [riseStep_error hrise]
    decide
  · split at h
    · exact advance_noRace h
    · cases h

theorem stepFalling_noRace (h : stepFalling sv n xr u = .error r) : r ≠ .race := by
  unfold stepFalling at h
  split at h
  · rename_i hprod
    cases h
    rw [(chk32_error.1 hprod).1]
    decide
  · split at h
    · exact advance_noRace h
    · cases h

theorem sampleUnit_noRace (h : sampleUnit sv n xr u = .error r) : r ≠ .race := by
  unfold sampleUnit at h
  split at h
  · cases h; exact countHold_noRace ‹_›
  · unfold stepLevel at h
    split at h
    · cases h
    split at h
    · cases h
    split at h
    · exact stepRising_noRace h
    · exact stepFalling_noRace h

end

/-! ### What a command can leave -/

section
variable {s t : State} {d e : UnitNo} {i : Instr}

/-- GETSAMPLE of at least one sample writes what its unit's work answers (40_envelope_ops R108). -/
theorem ordinaryBody_sample {n : Nat} {xr : Int} {u : EnvUnit} :
    OrdinaryBody s ((sampleUnit (s.services d) n xr u).map fun v => (s.setUnit d v).writeResult v.level) := by
  cases h : sampleUnit (s.services d) n xr u with
  | error r => exact ordinaryBody_error (sampleUnit_noRace h)
  | ok v => exact ordinaryBody_ok ((bodyWrites_setUnit s d v).trans (bodyWrites_writeResult _ _))

/-- Every command is an `attempt` of an ordinary body. -/
theorem exec_ordinaryBody (i : Instr) (s : State) :
    ∃ body, exec i s = s.attempt i body ∧ OrdinaryBody s body := by
  cases i with
  | init d => exact ⟨_, rfl, ordinaryBody_putUnit fun _ => advance_noRace⟩
  | keydown d g =>
    exact ⟨_, rfl, ordinaryBody_withValid (ordinaryBody_ite (ordinaryBody_ok (bodyWrites_refl s))
      (ordinaryBody_putUnit fun _ => advance_noRace))⟩
  | getsample d =>
    exact ⟨_, rfl, ordinaryBody_withValid (ordinaryBody_ite (ordinaryBody_error (by decide))
      (ordinaryBody_ite (ordinaryBody_ok (bodyWrites_writeResult s _)) ordinaryBody_sample))⟩
  | update d =>
    exact ⟨_, rfl, ordinaryBody_withValid (ordinaryBody_ite (ordinaryBody_putUnit fun _ => advance_noRace)
      (ordinaryBody_ok (bodyWrites_refl s)))⟩
  | getposition d => exact ⟨_, rfl, ordinaryBody_withValid (ordinaryBody_ok (bodyWrites_writeResult s _))⟩
  | transfer d e =>
    exact ⟨_, rfl, ordinaryBody_withValid (ordinaryBody_ite (ordinaryBody_error (by decide))
      (ordinaryBody_ok (bodyWrites_setUnit s d _)))⟩
  | setSampleRate =>
    exact ⟨_, rfl, ordinaryBody_ite (ordinaryBody_error (by decide))
      (ordinaryBody_ite (ordinaryBody_error (by decide)) (ordinaryBody_ok (bodyWrites_setCal s _)))⟩
  | levelScale =>
    exact ⟨_, rfl, ordinaryBody_ite (ordinaryBody_error (by decide))
      (ordinaryBody_ok (bodyWrites_writeResult s _))⟩
  | advance d k xr => exact ⟨_, rfl, ordinaryBody_putUnit fun _ => advance_noRace⟩

/-- Everything a command can leave: a stopped block as it was, a refused unit number, a completed command, or a
fault it raises (60_exceptions R200, R206, R208). -/
theorem exec_outcome (h : exec i s = .next t) :
    (s.fault ≠ .none ∧ t = s)
    ∨ (s.fault = .none ∧ t = s.takeRefusal .badUnit)
    ∨ (s.fault = .none ∧ t.fault = .none)
    ∨ (s.fault = .none ∧ ∃ r, r ≠ .race ∧ t = s.takeFault i.units r) := by
  obtain ⟨body, hbody, hord⟩ := exec_ordinaryBody i s
  obtain ⟨hf, rfl⟩ | ⟨hf, -, rfl⟩ | ⟨hf, -, hok⟩ | ⟨hf, -, r, herr, rfl⟩ := attempt_cases (hbody ▸ h)
  · exact .inl ⟨hf, rfl⟩
  · exact .inr (.inl ⟨hf, rfl⟩)
  · exact .inr (.inr (.inl ⟨hf, (hord.writes t hok).fault_eq.trans hf⟩))
  · exact .inr (.inr (.inr ⟨hf, r, hord.noRace r herr, rfl⟩))

theorem wellFormed_of_completed (h : exec i s = .next t) (ht : t.fault = .none) :
    i.wellFormed s.cfg.numInstances = true := by
  obtain ⟨body, hbody⟩ := exec_is_attempt i s
  obtain ⟨-, hwf, -⟩ := attempt_completed (hbody ▸ h) ht
  exact hwf

theorem exists_of_completed (h : exec i s = .next t) (ht : t.fault = .none) (hd : d ∈ i.units) : s.Exists d :=
  wellFormed_iff.1 (wellFormed_of_completed h ht) d hd

/-! ### `CAL`, the voice fields and the level -/

theorem cal_eq_of_completed (hi : i ≠ .setSampleRate) (h : exec i s = .next t) (ht : t.fault = .none) :
    t.cal = s.cal := by
  cases i with
  | init d => obtain ⟨v, -, rfl⟩ := init_completed h ht; rfl
  | keydown d g => obtain ⟨-, ⟨-, rfl⟩ | ⟨-, v, -, rfl⟩⟩ := keydown_completed h ht <;> rfl
  | getsample d => obtain ⟨-, -, ⟨-, rfl⟩ | ⟨-, v, -, rfl⟩⟩ := getsample_completed h ht <;> rfl
  | update d => obtain ⟨-, ⟨-, rfl⟩ | ⟨-, v, -, rfl⟩⟩ := update_completed h ht <;> rfl
  | getposition d => obtain ⟨-, rfl⟩ := getposition_completed h ht; rfl
  | transfer d e => obtain ⟨-, -, rfl⟩ := transfer_completed h ht; rfl
  | setSampleRate => exact absurd rfl hi
  | levelScale => obtain ⟨-, rfl⟩ := levelScale_completed h ht; rfl
  | advance d k xr => obtain ⟨v, -, rfl⟩ := advance_completed h ht; rfl

/-- Every command but SET_SAMPLE_RATE keeps `CAL`, also when it faults or is refused (43_calibration R184,
60_exceptions R206 c). -/
theorem cal_eq_of_exec (hi : i ≠ .setSampleRate) (h : exec i s = .next t) : t.cal = s.cal := by
  obtain ⟨-, rfl⟩ | ⟨-, rfl⟩ | ⟨-, ht⟩ | ⟨-, r, -, rfl⟩ := exec_outcome h
  · rfl
  · rfl
  · exact cal_eq_of_completed hi h ht
  · exact takeFault_cal ..

/-- A reading of the units that a written unit agrees with does not change. -/
theorem reading_setUnit {α : Type} (f : EnvUnit → α) {v : EnvUnit} (hv : f v = f (s.unit d)) (e : UnitNo) :
    f ((s.setUnit d v).unit e) = f (s.unit e) := by
  rw [unit_setUnit]
  split
  · rename_i he; rw [hv, he]
  · rfl

/-- The two fields of the voice that ADVANCE reads and does not write (40_envelope_ops R123). -/
def EnvUnit.voice (u : EnvUnit) : Word × Word := (u.outputLevel, u.rateScaling)

theorem voice_of_advance {sv : Services} {k : Fin 5} {xr : Int} {u v : EnvUnit}
    (h : advance sv k xr u = .ok v) : v.voice = u.voice := by
  obtain ⟨-, -, -, hol, hrs, -⟩ := advance_frame h
  exact Prod.ext hol hrs

theorem voice_of_sampleUnit {sv : Services} {n : Nat} {xr : Int} {u v : EnvUnit}
    (h : sampleUnit sv n xr u = .ok v) : v.voice = u.voice := by
  obtain ⟨-, -, hol, hrs⟩ := sampleUnit_frame h
  exact Prod.ext hol hrs

theorem level_of_advance {sv : Services} {k : Fin 5} {xr : Int} {u v : EnvUnit}
    (h : advance sv k xr u = .ok v) : v.level = u.level := by
  obtain ⟨-, hlevel, -⟩ := advance_frame h
  exact hlevel

theorem voice_eq_of_completed (h : exec i s = .next t) (ht : t.fault = .none) (hinit : ∀ d, i ≠ .init d)
    (hupdate : ∀ d, i ≠ .update d) (htransfer : ∀ d e, i ≠ .transfer d e) (e : UnitNo) :
    (t.unit e).voice = (s.unit e).voice := by
  cases i with
  | init d => exact absurd rfl (hinit d)
  | keydown d g =>
    obtain ⟨-, ⟨-, rfl⟩ | ⟨-, v, hv, rfl⟩⟩ := keydown_completed h ht
    · rfl
    · exact reading_setUnit EnvUnit.voice (voice_of_advance hv :) e
  | getsample d =>
    obtain ⟨-, -, ⟨-, rfl⟩ | ⟨-, v, hv, rfl⟩⟩ := getsample_completed h ht
    · rfl
    · exact reading_setUnit EnvUnit.voice (voice_of_sampleUnit hv) e
  | update d => exact absurd rfl (hupdate d)
  | getposition d => obtain ⟨-, rfl⟩ := getposition_completed h ht; rfl
  | transfer d src => exact absurd rfl (htransfer d src)
  | setSampleRate => obtain ⟨-, -, rfl⟩ := setSampleRate_completed h ht; rfl
  | levelScale => obtain ⟨-, rfl⟩ := levelScale_completed h ht; rfl
  | advance d k xr =>
    obtain ⟨v, hv, rfl⟩ := advance_completed h ht
    exact reading_setUnit EnvUnit.voice (voice_of_advance hv :) e

theorem level_eq_of_completed (h : exec i s = .next t) (ht : t.fault = .none) (hinit : ∀ d, i ≠ .init d)
    (hgetsample : ∀ d, i ≠ .getsample d) (htransfer : ∀ d e, i ≠ .transfer d e) (e : UnitNo) :
    (t.unit e).level = (s.unit e).level := by
  cases i with
  | init d => exact absurd rfl (hinit d)
  | keydown d g =>
    obtain ⟨-, ⟨-, rfl⟩ | ⟨-, v, hv, rfl⟩⟩ := keydown_completed h ht
    · rfl
    · exact reading_setUnit EnvUnit.level (level_of_advance hv :) e
  | getsample d => exact absurd rfl (hgetsample d)
  | update d =>
    obtain ⟨-, ⟨-, rfl⟩ | ⟨-, v, hv, rfl⟩⟩ := update_completed h ht
    · rfl
    · exact reading_setUnit EnvUnit.level (level_of_advance hv :) e
  | getposition d => obtain ⟨-, rfl⟩ := getposition_completed h ht; rfl
  | transfer d src => exact absurd rfl (htransfer d src)
  | setSampleRate => obtain ⟨-, -, rfl⟩ := setSampleRate_completed h ht; rfl
  | levelScale => obtain ⟨-, rfl⟩ := levelScale_completed h ht; rfl
  | advance d k xr =>
    obtain ⟨v, hv, rfl⟩ := advance_completed h ht
    exact reading_setUnit EnvUnit.level (level_of_advance hv :) e

/-! ### Every step answers a next state -/

theorem present_next (c : Command) (s : State) : ∃ t, present c s = .next t := by
  unfold present
  split
  · split
    · exact ⟨_, rfl⟩
    · exact exec_next _ _
  · exact ⟨_, rfl⟩

theorem runInSomeOrder_next (k : Nat) (cs : List Command) (s : State) :
    ∃ t, runInSomeOrder k cs s = .next t := by
  induction k generalizing cs s with
  | zero => exact ⟨s, rfl⟩
  | succ k ih =>
    unfold runInSomeOrder
    split
    · exact ⟨_, rfl⟩
    · rename_i c _
      obtain ⟨m, hm⟩ := present_next c { s with freeCount := s.freeCount + 1 }
      rw [hm, andThen_next]
      exact ih _ m

theorem presentOverlap_next (cs : List Command) (s : State) : ∃ t, presentOverlap cs s = .next t := by
  unfold presentOverlap
  split
  · split
    · exact ⟨_, rfl⟩
    · exact runInSomeOrder_next _ _ _
  · exact ⟨_, rfl⟩

theorem step_next (s : State) : ∃ t, step s = .next t := by
  cases hin : s.inbox with
  | nil => exact ⟨s, step_of_inbox_eq_nil hin⟩
  | cons e rest =>
    rw [step_of_inbox_eq_cons hin]
    cases e with
    | command c => exact present_next _ _
    | overlap cs => exact presentOverlap_next _ _
    | reset => exact ⟨_, rfl⟩

end

/-- Settles O17 (log 2): every command and every step answers a next state. -/
theorem stepAlwaysAnswersNext : Obligations.StepAlwaysAnswersNext := ⟨exec_next, step_next⟩

/-- Settles O21 (43_calibration R183 e, R184): no other command's body writes `CAL` and a fault keeps it;
SET_SAMPLE_RATE names no unit. -/
theorem calHasOneWriter : Obligations.CalHasOneWriter :=
  ⟨fun _ _ _ => cal_eq_of_exec, fun _ _ h _ => unit_eq_of_not_mem_units h (by simp [Instr.units])⟩

/-- Settles O23 (40_envelope_ops R123): the other commands write a unit through ADVANCE or the batch step alone. -/
theorem voiceFieldsHaveThreeWriters : Obligations.VoiceFieldsHaveThreeWriters := by
  intro i s t h ht
  refine ⟨fun hinit hupdate htransfer e => ?_, level_eq_of_completed h ht⟩
  exact Prod.mk.inj (voice_eq_of_completed h ht hinit hupdate htransfer e)

/-- Settles O27 (60_exceptions R206): of the four outcomes of a command only a refusal and a raised fault leave
FAULT written in a running block. -/
theorem raisedFaultKeepsTheRest : Obligations.RaisedFaultKeepsTheRest := by
  intro i s t hf h ht
  obtain ⟨hstopped, -⟩ | ⟨-, rfl⟩ | ⟨-, hnone⟩ | ⟨-, r, hrace, rfl⟩ := exec_outcome h
  · exact absurd hf hstopped
  · refine ⟨rfl, rfl, rfl, rfl, fun _ _ => rfl, by simp [hf], fun x hx => ?_⟩
    have : x = .badUnit := by simpa [hf, eq_comm] using hx
    simp [State.takeRefusal, hf, this]
  · exact absurd hnone ht
  · exact ⟨takeFault_cal .., takeFault_cfg .., takeFault_ports .., takeFault_inbox ..,
      fun e he => unit_eq_of_not_mem_units h he, by simp [hf, hrace], fun x hx => by simp [hf] at hx⟩

end Sys2Proof.Machine

/-! SUPPORT. Completing a command from the answer of its unit's work, and ADVANCE on two units that differ only in
what it overwrites; with both, what a command leaves when it is issued again, or among other units' commands
(20_memory R66, R71, 40_envelope_ops R102). -/

namespace Sys2Proof.Machine

/-! ### What ADVANCE does not read -/

section
variable {sv : Services} {k : Fin 5} {xr : Int} {u v : EnvUnit}

/-- An ADVANCE to an active phase reads none of the four fields it always writes (41_advance R140). -/
theorem advance_of_overwritten (hk : k ≠ 4) (a : BitVec 3) (b : Word) (c : Bool) (e : Word) :
    advance sv k xr { u with phaseIndex := a, targetLevel := b, rising := c, increment := e }
      = advance sv k xr u := by
  simp only [advance, hk, if_false, advanceHold, holdSet]

/-- In an ACCURATE unit it overwrites the hold as well (41_advance R149). -/
theorem advance_of_overwritten_hold (hk : k ≠ 4) (hm : sv.mode = .accurate) (h : Word) :
    advance sv k xr { u with holdCount := h } = advance sv k xr u := by
  simp only [advance, hk, if_false, advanceHold, holdSet, hm]

/-- ADVANCE to the active phase just entered, with the same operands, changes nothing. -/
theorem advance_again (hk : k ≠ 4) (h : advance sv k xr u = .ok v) : advance sv k xr v = .ok v := by
  obtain ⟨hk', -⟩ | ⟨-, -, -, t, q, w, -, -, hw, rfl⟩ := advance_ok h
  · exact absurd hk' hk
  obtain ⟨-, rfl⟩ | ⟨hm, -⟩ := advanceHold_ok hw
  · exact (advance_of_overwritten hk _ _ _ _).trans h
  · exact (advance_of_overwritten hk _ _ _ _).trans ((advance_of_overwritten_hold hk hm w).trans h)

/-- What INIT makes of a unit does not depend on what the unit held (40_envelope_ops R102). -/
theorem advance_initFields (p : Ports) (u v : EnvUnit) :
    advance sv 0 xr (initFields p v) = advance sv 0 xr (initFields p u) :=
  advance_of_overwritten (u := initFields p u) (by decide) v.phaseIndex v.targetLevel v.rising v.increment

end

/-! ### Completing a command -/

section
variable {s t : State} {d e : UnitNo} {i : Instr} {v : EnvUnit}

theorem wellFormed_of_exists (hi : i.units = [d]) (hd : s.Exists d) :
    i.wellFormed s.cfg.numInstances = true :=
  wellFormed_iff.2 (by simpa [hi, State.Exists] using hd)

theorem exec_init_of_advance (hf : s.fault = .none) (hd : s.Exists d)
    (h : advance (s.services d) 0 0 (initFields s.ports (s.unit d)) = .ok v) :
    exec (.init d) s = .next (s.setUnit d v) :=
  attempt_ok hf (wellFormed_of_exists rfl hd) (putUnit_ok.2 ⟨v, h, rfl⟩)

theorem exec_keydown_of_same (hf : s.fault = .none) (hd : s.Exists d) (hv : (s.unit d).valid = true)
    {g : Bool} (hg : g = (s.unit d).gateDown) : exec (.keydown d g) s = .next s :=
  attempt_withValid_ok rfl hf hd hv (if_pos hg)

theorem exec_keydown_of_advance (hf : s.fault = .none) (hd : s.Exists d) (hv : (s.unit d).valid = true)
    {g : Bool} (hg : g ≠ (s.unit d).gateDown)
    (h : advance (s.services d) (gatePhase g) 0 { s.unit d with gateDown := g } = .ok v) :
    exec (.keydown d g) s = .next (s.setUnit d v) :=
  attempt_withValid_ok rfl hf hd hv ((if_neg hg).trans (putUnit_ok.2 ⟨v, h, rfl⟩))

theorem exec_update_of_advance (hf : s.fault = .none) (hd : s.Exists d) (hv : (s.unit d).valid = true)
    (hg : (s.unit d).gateDown = true)
    (h : advance (s.services d) 2 0
      { s.unit d with outputLevel := s.ports.ol, rateScaling := s.ports.rs } = .ok v) :
    exec (.update d) s = .next (s.setUnit d v) :=
  attempt_withValid_ok rfl hf hd hv ((if_pos hg).trans (putUnit_ok.2 ⟨v, h, rfl⟩))

theorem exec_getposition_of_valid (hf : s.fault = .none) (hd : s.Exists d) (hv : (s.unit d).valid = true) :
    exec (.getposition d) s = .next (s.writeResult ((s.unit d).phaseIndex.setWidth 32)) :=
  attempt_withValid_ok rfl hf hd hv rfl

theorem exec_levelScale_of_le (hf : s.fault = .none) (hl : s.ports.linValue ≤ 127) :
    exec .levelScale s = .next (s.writeResult (BitVec.ofNat 32 (levelScale s.cfg s.ports.linValue))) :=
  attempt_ok hf (by simp [Instr.wellFormed, Instr.units]) (if_neg (Nat.not_lt.2 hl))

theorem exec_setSampleRate_of_lt (hf : s.fault = .none) (hz : s.ports.rateValue ≠ 0)
    (hlt : calOf s.cfg.calOf s.ports.rateValue < 2 ^ 32) :
    exec .setSampleRate s = .next (s.setCal (BitVec.ofNat 32 (calOf s.cfg.calOf s.ports.rateValue))) :=
  attempt_ok hf (by simp [Instr.wellFormed, Instr.units]) ((if_neg hz).trans (if_neg (Nat.not_le.2 hlt)))

theorem nValue_eq_zero_iff (p : Ports) : p.nValue = 0 ↔ p.n = 0#32 := by
  simp [Ports.nValue, BitVec.toNat_eq]

/-! ### The same command again (20_memory R66) -/

/-- A command that completed completes again and leaves what it left. -/
theorem exec_again_of_completed (hi : ∀ d k xr, i ≠ .advance d k xr)
    (hsample : (∃ d, i = .getsample d) → s.ports.n = 0#32) (h : exec i s = .next t) (ht : t.fault = .none) :
    exec i t = .next t := by
  have hexists {d : UnitNo} (hd : d ∈ i.units) : s.Exists d := exists_of_completed h ht hd
  cases i with
  | init d =>
    obtain ⟨v, hv, rfl⟩ := init_completed h ht
    have hagain : advance ((s.setUnit d v).services d) 0 0 (initFields s.ports ((s.setUnit d v).unit d))
        = .ok v := (advance_initFields s.ports _ _).trans hv
    simpa using exec_init_of_advance ht (hexists (by simp [Instr.units])) hagain
  | keydown d g =>
    obtain ⟨hvalid, ⟨hg, rfl⟩ | ⟨-, v, hv, rfl⟩⟩ := keydown_completed h ht
    · exact h
    · obtain ⟨hvalid', -, hgate, -⟩ := advance_frame hv
      exact exec_keydown_of_same ht (hexists (by simp [Instr.units]))
        (by simpa [hvalid] using hvalid') (by simpa using hgate.symm)
  | getsample d =>
    have hn := (nValue_eq_zero_iff _).2 (hsample ⟨d, rfl⟩)
    obtain ⟨hvalid, -, ⟨-, rfl⟩ | ⟨hpos, -⟩⟩ := getsample_completed h ht
    · exact getsampleOfNoSamples _ d ht (hexists (by simp [Instr.units])) hvalid (hsample ⟨d, rfl⟩)
    · exact absurd hn hpos
  | update d =>
    obtain ⟨hvalid, ⟨-, rfl⟩ | ⟨hg, v, hv, rfl⟩⟩ := update_completed h ht
    · exact h
    · obtain ⟨hvalid', -, hgate, hol, hrs, -⟩ := advance_frame hv
      have hsame : { v with outputLevel := s.ports.ol, rateScaling := s.ports.rs } = v := by
        simp only at hol hrs
        rw [← hol, ← hrs]
      have hagain : advance (s.services d) 2 0 { v with outputLevel := s.ports.ol, rateScaling := s.ports.rs }
          = .ok v := by rw [hsame]; exact advance_again (by decide) hv
      simpa using exec_update_of_advance (d := d) ht (hexists (by simp [Instr.units]))
        (by simpa [hvalid] using hvalid') (by simpa [hg] using hgate) (by simpa using hagain)
  | getposition d =>
    obtain ⟨hvalid, rfl⟩ := getposition_completed h ht
    exact exec_getposition_of_valid ht (hexists (by simp [Instr.units])) hvalid
  | transfer d e =>
    obtain ⟨hvalid, hmode, rfl⟩ := transfer_completed h ht
    have hsource : (s.setUnit d (s.unit e)).unit e = s.unit e := by
      rw [unit_setUnit, ite_self]
    simpa [hsource] using transferCopiesUnit (s.setUnit d (s.unit e)) d e ht
      (hexists (by simp [Instr.units])) (hexists (by simp [Instr.units])) (by rw [hsource]; exact hvalid) hmode
  | setSampleRate =>
    obtain ⟨hz, hlt, rfl⟩ := setSampleRate_completed h ht
    exact exec_setSampleRate_of_lt ht hz hlt
  | levelScale =>
    obtain ⟨hle, rfl⟩ := levelScale_completed h ht
    exact exec_levelScale_of_le ht hle
  | advance d k xr => exact absurd rfl (hi d k xr)

/-! ### A command among other units' commands (20_memory R71) -/

/-- Two running states that a command on the units `ds` cannot tell apart. -/
structure State.AgreesOn (s s' : State) (ds : List UnitNo) : Prop where
  cfg : s'.cfg = s.cfg
  cal : s'.cal = s.cal
  ports : s'.ports = s.ports
  unit : ∀ d ∈ ds, s'.unit d = s.unit d

theorem State.AgreesOn.mode {s' : State} {ds : List UnitNo} (h : s.AgreesOn s' ds) (d : UnitNo) :
    s'.mode d = s.mode d := by
  simp [State.mode, h.cfg]

theorem State.AgreesOn.services {s' : State} {ds : List UnitNo} (h : s.AgreesOn s' ds) (d : UnitNo) :
    s'.services d = s.services d := by
  simp [State.services, h.cfg, h.cal, h.ports, h.mode d]

/-- A command that completes does so in every running state that agrees on the units it names, and writes the
same there. -/
theorem exec_of_agreesOn {s' : State} (hagree : s.AgreesOn s' i.units) (hf : s'.fault = .none)
    (h : exec i s = .next t) (ht : t.fault = .none) :
    ∃ t', exec i s' = .next t' ∧ t'.fault = .none ∧ ∀ d ∈ i.units, t'.unit d = t.unit d := by
  have hexists {d : UnitNo} (hd : d ∈ i.units) : s'.Exists d := by
    simpa [State.Exists, hagree.cfg] using exists_of_completed h ht hd
  have hsv := hagree.services
  have hports := hagree.ports
  cases i with
  | init d =>
    obtain ⟨v, hv, rfl⟩ := init_completed h ht
    have hu := hagree.unit d (by simp [Instr.units])
    exact ⟨_, exec_init_of_advance hf (hexists (by simp [Instr.units])) (by rw [hsv, hports, hu]; exact hv), hf,
      by simp [Instr.units]⟩
  | keydown d g =>
    have hd : d ∈ (Instr.keydown d g).units := by simp [Instr.units]
    have hu := hagree.unit d hd
    obtain ⟨hvalid, ⟨hg, rfl⟩ | ⟨hg, v, hv, rfl⟩⟩ := keydown_completed h ht
    · exact ⟨_, exec_keydown_of_same hf (hexists hd) (by rw [hu]; exact hvalid) (by rw [hu]; exact hg), hf,
        hagree.unit⟩
    · exact ⟨_, exec_keydown_of_advance hf (hexists hd) (by rw [hu]; exact hvalid) (by rw [hu]; exact hg)
        (by rw [hsv, hu]; exact hv), hf, by simp [Instr.units]⟩
  | getsample d =>
    have hd : d ∈ (Instr.getsample d).units := by simp [Instr.units]
    have hu := hagree.unit d hd
    obtain ⟨hvalid, hn, ⟨hz, rfl⟩ | ⟨hpos, v, hv, rfl⟩⟩ := getsample_completed h ht
    · exact ⟨_, getsampleOfNoSamples s' d hf (hexists hd) (by rw [hu]; exact hvalid)
        (by rw [hports]; exact (nValue_eq_zero_iff _).1 hz), hf, hagree.unit⟩
    · exact ⟨_, exec_getsample_of_sampleUnit hf (hexists hd) (by rw [hu]; exact hvalid)
        (by rw [hports]; exact Nat.pos_of_ne_zero hpos) (by rw [hports]; exact hn)
        (by rw [hsv, hports, hu]; exact hv), hf, by simp [Instr.units]⟩
  | update d =>
    have hd : d ∈ (Instr.update d).units := by simp [Instr.units]
    have hu := hagree.unit d hd
    obtain ⟨hvalid, ⟨hg, rfl⟩ | ⟨hg, v, hv, rfl⟩⟩ := update_completed h ht
    · exact ⟨_, updateReleasedIsNoop s' d hf (hexists hd) (by rw [hu]; exact hvalid) (by rw [hu]; exact hg), hf,
        hagree.unit⟩
    · exact ⟨_, exec_update_of_advance hf (hexists hd) (by rw [hu]; exact hvalid) (by rw [hu]; exact hg)
        (by rw [hsv, hports, hu]; exact hv), hf, by simp [Instr.units]⟩
  | getposition d =>
    have hd : d ∈ (Instr.getposition d).units := by simp [Instr.units]
    obtain ⟨hvalid, rfl⟩ := getposition_completed h ht
    exact ⟨_, exec_getposition_of_valid hf (hexists hd) (by rw [hagree.unit d hd]; exact hvalid), hf,
      hagree.unit⟩
  | transfer d e =>
    have hd : d ∈ (Instr.transfer d e).units := by simp [Instr.units]
    have he : e ∈ (Instr.transfer d e).units := by simp [Instr.units]
    obtain ⟨hvalid, hmode, rfl⟩ := transfer_completed h ht
    refine ⟨_, transferCopiesUnit s' d e hf (hexists hd) (hexists he) (by rw [hagree.unit e he]; exact hvalid)
      (by rw [hagree.mode, hagree.mode]; exact hmode), hf, fun c hc => ?_⟩
    rw [unit_setUnit, unit_setUnit, hagree.unit e he, hagree.unit c hc]
  | setSampleRate =>
    obtain ⟨hz, hlt, rfl⟩ := setSampleRate_completed h ht
    exact ⟨_, exec_setSampleRate_of_lt hf (by rw [hports]; exact hz) (by rw [hports, hagree.cfg]; exact hlt), hf,
      hagree.unit⟩
  | levelScale =>
    obtain ⟨hle, rfl⟩ := levelScale_completed h ht
    exact ⟨_, exec_levelScale_of_le hf (by rw [hports]; exact hle), hf, hagree.unit⟩
  | advance d k xr =>
    have hd : d ∈ (Instr.advance d k xr).units := by simp [Instr.units]
    obtain ⟨v, hv, rfl⟩ := advance_completed h ht
    exact ⟨_, exec_advance_of_advance_eq_ok hf (hexists hd) (by rw [hsv, hagree.unit d hd]; exact hv), hf,
      by simp [Instr.units]⟩

/-- A command with its own ports keeps the configuration, `CAL` and the units it does not name. -/
theorem frame_of_latched {p : Ports} (hi : i ≠ .setSampleRate) (h : exec i { s with ports := p } = .next t) :
    t.cfg = s.cfg ∧ t.cal = s.cal ∧ ∀ d, d ∉ i.units → t.unit d = s.unit d :=
  ⟨exec_cfg (s := { s with ports := p }) h, cal_eq_of_exec (s := { s with ports := p }) hi h,
    fun _ hd => unit_eq_of_not_mem_units (s := { s with ports := p }) h hd⟩

/-- A unit bank is its units. -/
theorem units_eq_of_unit (h : ∀ d, s.unit d = t.unit d) : s.units = t.units := by
  ext j hj : 1
  simpa [State.unit, Nat.mod_eq_of_lt hj] using h (BitVec.ofNat 8 j)

end

/-- Settles O24 (20_memory R66): a command that left FAULT written finds the block stopped; one that completed finds
its unit as it computes it. -/
theorem idempotentCommands : Obligations.IdempotentCommands := by
  intro i s t hi hsample h
  by_cases ht : t.fault = .none
  · exact exec_again_of_completed hi hsample h ht
  · exact exec_stopped i ht

/-- Settles O16 (20_memory R71): each command finds its own units, `CAL` and its ports in the other order as in the
first, so it completes and writes the same. -/
theorem distinctUnitsCommute : Obligations.DistinctUnitsCommute := by
  intro s t i j p q hi hj hdistinct h ht
  obtain ⟨r, hr, hrt⟩ := andThen_eq_next h
  have hrf : r.fault = .none := running_of_completed (s := { r with ports := q }) hrt ht
  have hsf : s.fault = .none := running_of_completed (s := { s with ports := p }) hr hrf
  obtain ⟨hrcfg, hrcal, hrunit⟩ := frame_of_latched hi hr
  obtain ⟨-, htcal, htunit⟩ := frame_of_latched hj hrt
  obtain ⟨r', hr', hrf', hown⟩ := exec_of_agreesOn (s := { r with ports := q }) (s' := { s with ports := q })
    ⟨hrcfg.symm, hrcal.symm, rfl, fun d hd => (hrunit d fun hdi => hdistinct d hdi hd).symm⟩ hsf hrt ht
  obtain ⟨hrcfg', hrcal', hrunit'⟩ := frame_of_latched hj hr'
  obtain ⟨t', ht', htf', hown'⟩ := exec_of_agreesOn (s := { s with ports := p }) (s' := { r' with ports := p })
    ⟨hrcfg', hrcal', rfl, fun d hd => hrunit' d (hdistinct d hd)⟩ hrf' hr hrf
  obtain ⟨-, htcal', htunit'⟩ := frame_of_latched hi ht'
  have hunits (d : UnitNo) : t'.unit d = t.unit d := by
    by_cases hdi : d ∈ i.units
    · rw [hown' d hdi, htunit d (hdistinct d hdi)]
    by_cases hdj : d ∈ j.units
    · rw [htunit' d hdi, hown d hdj]
    · rw [htunit' d hdi, hrunit' d hdj, htunit d hdj, hrunit d hdi]
  exact ⟨t', by rw [hr', andThen_next]; exact ht', htf', units_eq_of_unit hunits,
    by rw [htcal', hrcal', htcal, hrcal]⟩

end Sys2Proof.Machine

/-! SUPPORT. INIT and UPDATE into their phases, and the faults that the commands raise: each test of ADVANCE in its
order (60_exceptions R209 c), ADVANCE inside its callers (00_scope R26), and the operand tests of the others. -/

namespace Sys2Proof.Machine

/-! ### The faults of ADVANCE (60_exceptions R209 c) -/

section
variable {sv : Services} {k : Fin 5} {xr : Int} {u : EnvUnit} {r : FaultReason}

theorem advance_of_paramRange (hk : k ≠ 4)
    (h : 99 < rateParam sv.params k.val ∨ 99 < levelParam sv.params k.val) :
    advance sv k xr u = .error .paramRange := by
  simp [advance, hk, h]

theorem advance_of_target_error (hk : k ≠ 4) (hr : rateParam sv.params k.val ≤ 99)
    (hl : levelParam sv.params k.val ≤ 99)
    (ht : target sv.cfg (levelParam sv.params k.val) u.outputLevel.toInt = .error r) :
    advance sv k xr u = .error r := by
  simp [advance, hk, Nat.not_lt.2 hr, Nat.not_lt.2 hl, ht]

theorem advance_of_clampRate_error {t : Int} (hk : k ≠ 4) (hr : rateParam sv.params k.val ≤ 99)
    (hl : levelParam sv.params k.val ≤ 99)
    (ht : target sv.cfg (levelParam sv.params k.val) u.outputLevel.toInt = .ok t)
    (hq : clampRate (rateCode sv.cfg.rateCode (rateParam sv.params k.val) u.rateScaling.toInt xr) = .error r) :
    advance sv k xr u = .error r := by
  simp [advance, hk, Nat.not_lt.2 hr, Nat.not_lt.2 hl, ht, hq]

theorem advance_of_advanceHold_error {t : Int} {q : Nat} (hk : k ≠ 4) (hr : rateParam sv.params k.val ≤ 99)
    (hl : levelParam sv.params k.val ≤ 99)
    (ht : target sv.cfg (levelParam sv.params k.val) u.outputLevel.toInt = .ok t)
    (hq : clampRate (rateCode sv.cfg.rateCode (rateParam sv.params k.val) u.rateScaling.toInt xr) = .ok q)
    (hh : advanceHold sv u k (rateParam sv.params k.val) (levelParam sv.params k.val) t xr = .error r) :
    advance sv k xr u = .error r := by
  simp [advance, hk, Nat.not_lt.2 hr, Nat.not_lt.2 hl, ht, hq, hh]

/-- A blend outside -2^31 to 32767 is F_OVERFLOW (41_advance R141). -/
theorem target_of_blend_out (h : phaseBlend sv k u < -2147483648 ∨ 32767 < phaseBlend sv k u) :
    target sv.cfg (levelParam sv.params k.val) u.outputLevel.toInt = .error .overflow := by
  rw [phaseBlend_eq] at h
  cases ht : target sv.cfg (levelParam sv.params k.val) u.outputLevel.toInt with
  | error e => rw [target_error ht]
  | ok t =>
    obtain ⟨-, ⟨hlo, -⟩, hhi⟩ := target_ok.1 ht
    omega

theorem target_of_blend_in (hlo : -2147483648 ≤ phaseBlend sv k u) (hhi : phaseBlend sv k u ≤ 32767) :
    target sv.cfg (levelParam sv.params k.val) u.outputLevel.toInt = .ok (phaseTarget sv k u) := by
  rw [phaseBlend_eq] at hlo hhi
  exact target_ok.2 ⟨by rw [phaseTarget, phaseBlend_eq], ⟨hlo, by omega⟩, hhi⟩

theorem clampRate_of_neg {q : Int} (h : q < 0) : clampRate q = .error .rateCode := if_pos h

theorem clampRate_of_nonneg {q : Int} (h : 0 ≤ q) : clampRate q = .ok (min q 63).toNat :=
  clampRate_ok.2 ⟨h, rfl⟩

/-- The hold that an ADVANCE which computes one leaves: the static code is tested, then the hold
(44_accurate_timing R194, R195). -/
theorem advanceHold_of_holdsOnEntry (he : holdsOnEntry sv k u) :
    advanceHold sv u k (rateParam sv.params k.val) (levelParam sv.params k.val) (phaseTarget sv k u) xr
      = (if phaseStaticCode sv k xr u < 0 ∨ 99 < phaseStaticCode sv k xr u then .error .rateCode
        else chk32 (holdSamples sv.cfg sv.cal (phaseStaticCode sv k xr u).toNat (zeroAttack sv k))).map
          ofValue := by
  obtain ⟨hm, hentry⟩ := he
  have htest : ¬ (phaseTarget sv k u ≠ u.level.toInt ∧ zeroAttack sv k = false) := by
    rintro ⟨hne, hz⟩
    simp [hne, hz] at hentry
  simp only [advanceHold, hm, holdSet, zeroLevelAttack_eq, ← phaseStaticCode_eq, if_neg htest, hold, holdValue_eq]

theorem advanceHold_of_static_out (he : holdsOnEntry sv k u)
    (hc : phaseStaticCode sv k xr u < 0 ∨ 99 < phaseStaticCode sv k xr u) :
    advanceHold sv u k (rateParam sv.params k.val) (levelParam sv.params k.val) (phaseTarget sv k u) xr
      = .error .rateCode := by
  rw [advanceHold_of_holdsOnEntry he, if_pos hc]
  rfl

theorem advanceHold_of_hold_out (he : holdsOnEntry sv k u) (hlo : 0 ≤ phaseStaticCode sv k xr u)
    (hhi : phaseStaticCode sv k xr u ≤ 99)
    (hout : 2147483647 < holdSamples sv.cfg sv.cal (phaseStaticCode sv k xr u).toNat (zeroAttack sv k)) :
    advanceHold sv u k (rateParam sv.params k.val) (levelParam sv.params k.val) (phaseTarget sv k u) xr
      = .error .overflow := by
  have hchk := chk32_error.2 ⟨rfl, fun hin : InRange
    (holdSamples sv.cfg sv.cal (phaseStaticCode sv k xr u).toNat (zeroAttack sv k)) => by
      have := hin.2
      omega⟩
  rw [advanceHold_of_holdsOnEntry he, if_neg (by omega), hchk]
  rfl

end

/-! ### A raised fault is the command's -/

section
variable {s : State} {d : UnitNo} {i : Instr} {r : FaultReason} {body : Except FaultReason State}
  {f : EnvUnit → Except FaultReason State}

theorem attempt_raises (hf : s.fault = .none) (hw : i.wellFormed s.cfg.numInstances = true)
    (hb : body = .error r) : ∃ t, s.attempt i body = .next t ∧ t.fault = .fault r :=
  ⟨_, attempt_error hf hw hb, by simp [hf]⟩

theorem attempt_withValid_raises (hi : i.units = [d]) (hf : s.fault = .none) (hd : s.Exists d)
    (hv : (s.unit d).valid = true) (hb : f (s.unit d) = .error r) :
    ∃ t, s.attempt i (s.withValid d f) = .next t ∧ t.fault = .fault r :=
  attempt_raises hf (wellFormed_of_exists hi hd) ((withValid_valid hv).trans hb)

theorem exec_advance_raises {k : Fin 5} {xr : Word} (hf : s.fault = .none) (hd : s.Exists d)
    (h : advance (s.services d) k xr.toInt (s.unit d) = .error r) :
    ∃ t, exec (.advance d k xr) s = .next t ∧ t.fault = .fault r :=
  attempt_raises hf (wellFormed_of_exists rfl hd) (putUnit_eq_error_iff.2 h)

theorem exec_getsample_raises (hf : s.fault = .none) (hd : s.Exists d) (hv : (s.unit d).valid = true)
    (hpos : 0 < s.ports.nValue) (hlt : s.ports.nValue < 2147483648)
    (h : sampleUnit (s.services d) s.ports.nValue s.ports.xrValue (s.unit d) = .error r) :
    ∃ t, exec (.getsample d) s = .next t ∧ t.fault = .fault r := by
  refine attempt_withValid_raises rfl hf hd hv ?_
  rw [if_neg (by omega), if_neg (by omega), h]
  rfl

end

/-! ### The parts of GETSAMPLE -/

section
variable {sv : Services} {n : Nat} {xr : Int} {u v : EnvUnit} {r : FaultReason}

theorem sampleUnit_of_countHold_error (h : countHold sv n xr u = .error r) :
    sampleUnit sv n xr u = .error r := by
  rw [sampleUnit, h]

theorem sampleUnit_of_countHold_ok (h : countHold sv n xr u = .ok v) :
    sampleUnit sv n xr u = stepLevel sv n xr v := by
  rw [sampleUnit, h]

/-- A hold that the samples exhaust ends the phase (40_envelope_ops R110). -/
theorem countHold_of_expired (hm : sv.mode = .accurate) (hh : u.holdCount ≠ 0) (hle : u.holdCount.toInt ≤ n) :
    countHold sv n xr u = advance sv (nextPhase u) xr { u with holdCount := 0 } := by
  rw [countHold, if_pos ⟨hm, hh⟩, if_pos (by omega)]

theorem stepLevel_of_rising (hw : inSteppingWindow sv.cfg u = true) (hh : u.holdCount = 0)
    (hr : u.rising = true) : stepLevel sv n xr u = stepRising sv n xr u := by
  rw [stepLevel, if_neg (by simp [hw]), if_neg (by simp [hh]), if_pos hr]

theorem stepLevel_of_falling (hw : inSteppingWindow sv.cfg u = true) (hh : u.holdCount = 0)
    (hr : u.rising = false) : stepLevel sv n xr u = stepFalling sv n xr u := by
  rw [stepLevel, if_neg (by simp [hw]), if_neg (by simp [hh]), if_neg (by simp [hr])]

/-- The window holds active phases only (40_envelope_ops R109). -/
theorem phase_lt_of_inSteppingWindow {cfg : Config} (hw : inSteppingWindow cfg u = true) :
    u.phaseIndex.toNat < 4 := by
  unfold inSteppingWindow at hw
  split at hw
  · simpa using hw
  · simp only [Bool.or_eq_true, Bool.and_eq_true, decide_eq_true_eq] at hw
    omega

/-- `RISE_STEP_default` with its shift as a division (40_envelope_ops R112). -/
theorem referenceRiseStep_eq (level inc m : Int) : referenceRiseStep level inc m
    = (chk32 ((285212672 - max level 112459776) / 16777216 * inc * m)).bind
        fun p => chk32 (max level 112459776 + p) := by
  have hgain : (285212672 - max level 112459776) >>> (24 : Nat)
      = (285212672 - max level 112459776) / 16777216 := Int.shiftRight_eq_div_pow _ 24
  simp only [referenceRiseStep, hgain]
  cases chk32 ((285212672 - max level 112459776) / 16777216 * inc * m) <;> rfl

theorem referenceRiseStep_of_out {level inc m : Int}
    (h : ¬ InRange ((285212672 - max level 112459776) / 16777216 * inc * m)
      ∨ ¬ InRange (max level 112459776 + (285212672 - max level 112459776) / 16777216 * inc * m)) :
    referenceRiseStep level inc m = .error .overflow := by
  rw [referenceRiseStep_eq]
  by_cases hp : InRange ((285212672 - max level 112459776) / 16777216 * inc * m)
  · rw [chk32_of_inRange hp]
    exact chk32_error.2 ⟨rfl, h.resolve_left (not_not_intro hp)⟩
  · rw [chk32_error.2 ⟨rfl, hp⟩]
    rfl

end

/-! ### INIT and UPDATE into their phases -/

/-- Settles O36 (40_envelope_ops R100, R101, R103): the fields that INIT writes, then ADVANCE into phase 0. -/
theorem initStartsAttack : Obligations.InitStartsAttack :=
  fun _ _ hf hd hruns =>
    ⟨exec_init_of_advance hf hd (advance_eq_entered (by decide) hruns), rfl, rfl, rfl, rfl⟩

/-- Settles O37 (40_envelope_ops R102): in two running states with the same operands INIT's ADVANCE answers the same,
for it reads no field of the unit that INIT has not written. -/
theorem initForgetsOldUnit : Obligations.InitForgetsOldUnit := by
  intro s s' t t' d hf hf' hcfg hcal hports h h'
  have hsv : s'.services d = s.services d := by simp [State.services, State.mode, hcfg, hcal, hports]
  have hsame : advance (s'.services d) 0 0 (initFields s'.ports (s'.unit d))
      = advance (s.services d) 0 0 (initFields s.ports (s.unit d)) := by
    rw [hsv, hports]
    exact advance_initFields ..
  by_cases hwf : (Instr.init d).wellFormed s.cfg.numInstances = true
  · cases hv : advance (s.services d) 0 0 (initFields s.ports (s.unit d)) with
    | error r =>
      obtain ⟨x, hx, hxf⟩ := attempt_raises hf hwf (putUnit_eq_error_iff.2 hv)
      obtain ⟨x', hx', hxf'⟩ := attempt_raises hf' (hcfg ▸ hwf) (putUnit_eq_error_iff.2 (hsame.trans hv))
      cases hx.symm.trans h
      cases hx'.symm.trans h'
      exact ⟨hxf.trans hxf'.symm, fun hnone => by simp [hxf] at hnone⟩
    | ok v =>
      cases (attempt_ok hf hwf (putUnit_ok.2 ⟨v, hv, rfl⟩)).symm.trans h
      cases (attempt_ok hf' (hcfg ▸ hwf) (putUnit_ok.2 ⟨v, hsame.trans hv, rfl⟩)).symm.trans h'
      exact ⟨hf.trans hf'.symm, fun _ => by simp⟩
  · have hbad : (Instr.init d).wellFormed s.cfg.numInstances = false := by simpa using hwf
    cases (attempt_badUnit hf hbad).symm.trans h
    cases (attempt_badUnit hf' (hcfg ▸ hbad)).symm.trans h'
    simp [hf, hf']

/-- Settles O51 (40_envelope_ops R120): OL and RS stored, then ADVANCE into phase 2, which keeps the level. -/
theorem updateEntersSustain : Obligations.UpdateEntersSustain :=
  fun _ _ hf hd hv hg hruns =>
    ⟨exec_update_of_advance hf hd hv hg (advance_eq_entered (by decide) hruns), rfl⟩

/-! ### Which fault -/

/-- Settles O28 (60_exceptions R209 c): ADVANCE makes its tests in this order, and each clause fails one of them
after passing those before it. -/
theorem advanceFaultOrder : Obligations.AdvanceFaultOrder := by
  intro s d k xr hf hd hk
  refine ⟨fun hparam => ?_, fun hr hl hblend => ?_, fun hr hl hlo hhi hcode => ?_,
    fun hr hl hlo hhi hcode he hstatic => ?_, fun hr hl hlo hhi hcode he hslo hshi hout => ?_⟩
  · exact exec_advance_raises hf hd (advance_of_paramRange hk hparam)
  · exact exec_advance_raises hf hd (advance_of_target_error hk hr hl (target_of_blend_out hblend))
  · rw [phaseRateCode_eq] at hcode
    exact exec_advance_raises hf hd
      (advance_of_clampRate_error hk hr hl (target_of_blend_in hlo hhi) (clampRate_of_neg hcode))
  · rw [phaseRateCode_eq] at hcode
    exact exec_advance_raises hf hd (advance_of_advanceHold_error hk hr hl (target_of_blend_in hlo hhi)
      (clampRate_of_nonneg hcode) (advanceHold_of_static_out he hstatic))
  · rw [phaseRateCode_eq] at hcode
    exact exec_advance_raises hf hd (advance_of_advanceHold_error hk hr hl (target_of_blend_in hlo hhi)
      (clampRate_of_nonneg hcode) (advanceHold_of_hold_out he hslo hshi hout))

/-- Settles O29 (00_scope R26): each caller's body is the ADVANCE it makes, or in GETSAMPLE the stepping after it, so
its fault is the body's. -/
theorem callersPassOnAdvanceFaults : Obligations.CallersPassOnAdvanceFaults := by
  intro s d r hf hd
  refine ⟨fun h => ?_, fun g hv hg h => ?_, fun hv hg h => ?_, fun hv hpos hlt hm hh hle hphase => ?_,
    fun hv hpos hlt hw hh hcross h => ?_⟩
  · exact attempt_raises hf (wellFormed_of_exists rfl hd) (putUnit_eq_error_iff.2 h)
  · have hchanged : g ≠ (s.unit d).gateDown := by simp [hg]
    exact attempt_withValid_raises rfl hf hd hv ((if_neg hchanged).trans (putUnit_eq_error_iff.2 h))
  · exact attempt_withValid_raises rfl hf hd hv ((if_pos hg).trans (putUnit_eq_error_iff.2 h))
  · rw [phaseAfter_eq hphase]
    have hcount := countHold_of_expired (sv := s.services d) (xr := s.ports.xr.toInt) hm hh hle
    exact ⟨fun h => exec_getsample_raises hf hd hv hpos hlt (sampleUnit_of_countHold_error (hcount.trans h)),
      fun v h hstep => exec_getsample_raises hf hd hv hpos hlt
        ((sampleUnit_of_countHold_ok (hcount.trans h)).trans hstep)⟩
  · rw [phaseAfter_eq (Nat.le_of_lt_succ (phase_lt_of_inSteppingWindow hw))] at h
    have hcross' : CrossesTarget (s.services d) s.ports.nValue (s.unit d) :=
      hcross.imp_right fun ⟨hr, hlo, hhi, hle⟩ => ⟨hr, ⟨hlo, hhi⟩, hle⟩
    refine exec_getsample_raises hf hd hv hpos hlt ?_
    rw [sampleUnit_of_holdCount_eq_zero hh, stepLevel_of_crossesTarget hw hh hcross']
    exact h

/-- Settles O30 (60_exceptions R204 b, c): the operand tests stand before the commands' work, TRANSFER's mode test
after its test of `valid`. -/
theorem operandAndModeFaults : Obligations.OperandAndModeFaults := by
  intro s hf
  refine ⟨fun d hd hv hn => ?_, fun hl => ?_, fun hrate => ?_, fun d e hd he hv hm => ?_⟩
  · exact attempt_withValid_raises rfl hf hd hv (if_pos hn)
  · exact attempt_raises hf (by simp [Instr.wellFormed, Instr.units]) (if_pos hl)
  · refine ⟨_, attempt_error (r := .operandRange) hf (by simp [Instr.wellFormed, Instr.units]) ?_, by simp [hf],
      takeFault_cal ..⟩
    by_cases hz : s.ports.rateValue = 0
    · exact if_pos hz
    · exact (if_neg hz).trans (if_pos (hrate.resolve_left hz))
  · have hwf : (Instr.transfer d e).wellFormed s.cfg.numInstances = true :=
      wellFormed_iff.2 (by simpa [Instr.units] using ⟨hd, he⟩)
    exact attempt_raises hf hwf ((withValid_valid hv).trans (if_pos hm))

/-- Settles O31 (60_exceptions R204 a): with no hold, GETSAMPLE in the window is the batch step, whose product and
sum are checked. -/
theorem steppingOverflows : Obligations.SteppingOverflows := by
  rintro s d n hf hd hv rfl hpos hlt hw hh
  refine ⟨fun hr hout => ?_, fun hr hrule hout => ?_⟩
  · refine exec_getsample_raises hf hd hv hpos hlt ?_
    rw [sampleUnit_of_holdCount_eq_zero hh, stepLevel_of_falling hw hh hr, stepFalling,
      chk32_error.2 ⟨rfl, fun hin => ?_⟩]
    obtain ⟨hlo, hhi⟩ := hin
    exact hout.elim (not_lt.2 hlo) (not_lt.2 hhi)
  · have hrise : riseStep s.cfg.riseStep (s.unit d).level.toInt (s.unit d).increment.toInt s.ports.nValue
        = .error .overflow := by
      rw [hrule]
      refine referenceRiseStep_of_out ?_
      rcases hout with h | h | h | h
      · exact .inl fun hin => not_lt.2 hin.1 h
      · exact .inl fun hin => not_lt.2 hin.2 h
      · exact .inr fun hin => not_lt.2 hin.1 h
      · exact .inr fun hin => not_lt.2 hin.2 h
    refine exec_getsample_raises hf hd hv hpos hlt ?_
    rw [sampleUnit_of_holdCount_eq_zero hh, stepLevel_of_rising hw hh hr, stepRising, services_cfg, hrise]

end Sys2Proof.Machine

/-! SUPPORT. GETSAMPLE (40_envelope_ops R108 to R119): frozen, holding, moving, what bounds its level and its phase,
and the two instantiations of RISE_STEP. -/

namespace Sys2Proof.Machine

/-! ### The hold countdown and the batch step, case by case -/

section
variable {sv : Services} {n : Nat} {xr : Int} {u v : EnvUnit} {c : Int}

theorem countHold_of_not_running (h : ¬ (sv.mode = .accurate ∧ u.holdCount ≠ 0)) :
    countHold sv n xr u = .ok u := if_neg h

theorem countHold_of_outlasting (hm : sv.mode = .accurate) (hh : u.holdCount ≠ 0)
    (hlt : (n : Int) < u.holdCount.toInt) :
    countHold sv n xr u = .ok { u with holdCount := ofValue (u.holdCount.toInt - n) } := by
  rw [countHold, if_pos ⟨hm, hh⟩, if_neg (by omega)]

theorem stepLevel_of_not_inWindow (h : inSteppingWindow sv.cfg u = false) : stepLevel sv n xr u = .ok u :=
  if_pos h

theorem stepLevel_of_hold_running (h : u.holdCount ≠ 0) : stepLevel sv n xr u = .ok u := by
  cases hw : inSteppingWindow sv.cfg u with
  | false => exact stepLevel_of_not_inWindow hw
  | true => rw [stepLevel, if_neg (by simp [hw]), if_pos h]

/-- The candidate level `c` of a batch step of `n` samples does not reach the target (40_envelope_ops R112,
R114). -/
def MovesTo (sv : Services) (n : Nat) (u : EnvUnit) (c : Int) : Prop :=
  (u.rising = true ∧ riseStep sv.cfg.riseStep u.level.toInt u.increment.toInt n = .ok c
      ∧ c < u.targetLevel.toInt)
    ∨ (u.rising = false ∧ InRange (u.increment.toInt * n) ∧ c = u.level.toInt - u.increment.toInt * n
      ∧ u.targetLevel.toInt < c)

theorem stepLevel_of_movesTo (hw : inSteppingWindow sv.cfg u = true) (hh : u.holdCount = 0)
    (h : MovesTo sv n u c) : stepLevel sv n xr u = .ok { u with level := ofValue c } := by
  obtain ⟨hr, hstep, hlt⟩ | ⟨hr, hrange, rfl, hlt⟩ := h
  · rw [stepLevel_of_rising hw hh hr, stepRising, hstep]
    exact if_neg (not_le.2 hlt)
  · rw [stepLevel_of_falling hw hh hr, stepFalling, chk32_of_inRange hrange]
    exact if_neg (not_le.2 hlt)

/-- Everything GETSAMPLE can do to a unit with no hold: nothing, one advance at the target, or a moved level. -/
theorem stepLevel_outcome (h : stepLevel sv n xr u = .ok v) :
    v = u
    ∨ (inSteppingWindow sv.cfg u = true ∧ u.holdCount = 0 ∧
        advance sv (nextPhase u) xr { u with level := u.targetLevel } = .ok v)
    ∨ ∃ c, MovesTo sv n u c ∧ v = { u with level := ofValue c } := by
  obtain ⟨rfl, -⟩ | ⟨hw, hh, ha⟩ | ⟨-, -, hr, c, hstep, hlt, rfl⟩ | ⟨-, -, hr, hrange, hlt, rfl⟩ :=
    stepLevel_ok h
  · exact .inl rfl
  · exact .inr (.inl ⟨hw, hh, ha⟩)
  · exact .inr (.inr ⟨c, .inl ⟨hr, hstep, hlt⟩, rfl⟩)
  · exact .inr (.inr ⟨_, .inr ⟨hr, hrange, rfl, hlt⟩, rfl⟩)

/-- A falling unit with a non-negative increment moves down, so its candidate is representable. -/
theorem inRange_of_movesTo (hinc : 0 ≤ u.increment.toInt) (h : MovesTo sv n u c) : InRange c := by
  obtain ⟨-, hstep, -⟩ | ⟨-, -, rfl, hlt⟩ := h
  · exact riseStep_inRange hstep
  · have hprod : 0 ≤ u.increment.toInt * n := mul_nonneg hinc (Int.natCast_nonneg n)
    have htarget := (inRange_toInt u.targetLevel).1
    have hlevel := (inRange_toInt u.level).2
    exact ⟨by omega, by omega⟩

end

/-! ### RISE_STEP (40_envelope_ops R112) -/

section
variable {level inc n c : Int}

theorem referenceRiseStep_of_in (hprod : InRange ((285212672 - max level 112459776) / 16777216 * inc * n))
    (hsum : InRange (max level 112459776 + (285212672 - max level 112459776) / 16777216 * inc * n)) :
    referenceRiseStep level inc n
      = .ok (max level 112459776 + (285212672 - max level 112459776) / 16777216 * inc * n) := by
  rw [referenceRiseStep_eq, chk32_of_inRange hprod]
  exact chk32_of_inRange hsum

theorem referenceRiseStep_ok (h : referenceRiseStep level inc n = .ok c) :
    c = max level 112459776 + (285212672 - max level 112459776) / 16777216 * inc * n := by
  rw [referenceRiseStep_eq] at h
  cases hp : chk32 ((285212672 - max level 112459776) / 16777216 * inc * n) with
  | error e => rw [hp] at h; cases h
  | ok p =>
    rw [hp] at h
    obtain ⟨rfl, -⟩ := chk32_ok.1 hp
    exact (chk32_ok.1 h).1

theorem plainRiseStep_of_in (hprod : InRange (inc * n)) (hsum : InRange (level + inc * n)) :
    plainRiseStep level inc n = .ok (level + inc * n) := by
  rw [plainRiseStep, chk32_of_inRange hprod]
  exact chk32_of_inRange hsum

/-- The gain of the default RISE_STEP is non-negative up to a level of 17 << 24, and at most 10. -/
theorem referenceGain_bounds (h : level ≤ 285212672) :
    0 ≤ (285212672 - max level 112459776) / 16777216 ∧ (285212672 - max level 112459776) / 16777216 ≤ 10 := by
  omega

theorem le_of_referenceRiseStep (hinc : 0 ≤ inc) (hn : 0 ≤ n) (hl : level ≤ 285212672)
    (h : referenceRiseStep level inc n = .ok c) : level ≤ c := by
  have hstep := mul_nonneg (mul_nonneg (referenceGain_bounds hl).1 hinc) hn
  rw [referenceRiseStep_ok h]
  omega

end

/-! ### The phase (40_envelope_ops R115) -/

section
variable {sv : Services} {n : Nat} {xr : Int} {u v : EnvUnit}

/-- `q` is the phase `p` or the next one, and no later than IDLE. -/
def PhaseStep (p q : Nat) : Prop := p ≤ q ∧ q ≤ p + 1 ∧ q ≤ 4

theorem phaseStep_of_advance (hp : u.phaseIndex.toNat ≤ 4) {w : EnvUnit}
    (h : advance sv (nextPhase u) xr w = .ok v) : PhaseStep u.phaseIndex.toNat v.phaseIndex.toNat := by
  obtain ⟨-, -, -, -, -, hphase⟩ := advance_frame h
  rw [hphase, toNat_phase]
  have hnext : (nextPhase u).val = u.phaseIndex.toNat + 1 ∨ (u.phaseIndex.toNat = 4 ∧ (nextPhase u).val = 4) := by
    by_cases hlt : u.phaseIndex.toNat < 4
    · exact .inl (nextPhase_val hlt)
    · exact .inr ⟨by omega, by simp [nextPhase, hlt]⟩
  unfold PhaseStep
  omega

theorem phaseStep_of_countHold (hp : u.phaseIndex.toNat ≤ 4) (h : countHold sv n xr u = .ok v) :
    PhaseStep u.phaseIndex.toNat v.phaseIndex.toNat := by
  obtain ⟨-, rfl⟩ | ⟨-, -, -, ha⟩ | ⟨-, -, -, rfl⟩ := countHold_ok h
  · exact ⟨le_rfl, by omega, hp⟩
  · exact phaseStep_of_advance hp ha
  · exact ⟨le_rfl, by simp, hp⟩

theorem phaseStep_of_stepLevel (hp : u.phaseIndex.toNat ≤ 4) (h : stepLevel sv n xr u = .ok v) :
    PhaseStep u.phaseIndex.toNat v.phaseIndex.toNat := by
  obtain rfl | ⟨-, -, ha⟩ | ⟨c, -, rfl⟩ := stepLevel_outcome h
  · exact ⟨le_rfl, by omega, hp⟩
  · exact phaseStep_of_advance hp ha
  · exact ⟨le_rfl, by simp, hp⟩

/-- The advance that ends a phase in the window leaves it (40_envelope_ops R113). -/
theorem phase_ne_of_advance (hw : inSteppingWindow sv.cfg u = true) {w : EnvUnit}
    (h : advance sv (nextPhase u) xr w = .ok v) : v.phaseIndex ≠ u.phaseIndex := by
  obtain ⟨-, -, -, -, -, hphase⟩ := advance_frame h
  intro heq
  have hval := congrArg BitVec.toNat (hphase.symm.trans heq)
  rw [toNat_phase, nextPhase_val (phase_lt_of_inSteppingWindow hw)] at hval
  omega

end

/-- Settles O46 (40_envelope_ops R109): the phase is compared as a number. -/
theorem steppingWindow : Obligations.SteppingWindow := by
  intro cfg u
  simp only [BitVec.toNat_eq, BitVec.toNat_ofNat]
  refine ⟨fun h => ?_, fun h => ?_⟩
  · simp only [inSteppingWindow, h, Bool.or_eq_true, Bool.and_eq_true, decide_eq_true_eq, Bool.not_eq_true',
      Bool.false_eq_true, if_false]
    cases u.gateDown with
    | false => simp only [and_true]; omega
    | true => simp only [reduceCtorEq, and_false, or_false]; omega
  · simp only [inSteppingWindow, h, decide_eq_true_eq, if_true]
    omega

/-- Settles O47 (40_envelope_ops R112): the checks of product and sum pass. -/
theorem riseStepFormulas : Obligations.RiseStepFormulas :=
  fun _ _ _ => ⟨fun hlo hhi hlo' hhi' => referenceRiseStep_of_in ⟨hlo, hhi⟩ ⟨hlo', hhi'⟩,
    fun hlo hhi hlo' hhi' => plainRiseStep_of_in ⟨hlo, hhi⟩ ⟨hlo', hhi'⟩⟩

/-- Settles O41 (40_envelope_ops R109, R117 b, c): no hold is counted, and the phase is outside the window. -/
theorem getsampleFrozen : Obligations.GetsampleFrozen := by
  intro s d hf hd hv hlt hhold hphase
  by_cases hn : s.ports.n = 0#32
  · exact getsampleOfNoSamples s d hf hd hv hn
  have hpos : 0 < s.ports.nValue := Nat.pos_of_ne_zero fun hz => hn ((nValue_eq_zero_iff _).1 hz)
  have hrun : ¬ ((s.services d).mode = .accurate ∧ (s.unit d).holdCount ≠ 0) := by
    rintro ⟨hm, hh⟩
    rcases hhold with hst | hz
    · cases hst.symm.trans hm
    · exact hh hz
  have hwindow : inSteppingWindow (s.services d).cfg (s.unit d) = false := by
    rcases hphase with hp | ⟨hp, hg, h3⟩
    · simp [inSteppingWindow, hp]
    · simp [inSteppingWindow, hp, hg, h3]
  have hunit : sampleUnit (s.services d) s.ports.nValue s.ports.xrValue (s.unit d) = .ok (s.unit d) :=
    (sampleUnit_of_countHold_ok (countHold_of_not_running hrun)).trans (stepLevel_of_not_inWindow hwindow)
  simpa using exec_getsample_of_sampleUnit hf hd hv hpos hlt hunit

/-- Settles O42 (40_envelope_ops R110): the hold that is left is not zero, so the batch step stands still. -/
theorem getsampleCountsHold : Obligations.GetsampleCountsHold := by
  intro s d hf hd hv hm hpos hlt
  have hrange := inRange_toInt (s.unit d).holdCount
  have hh : (s.unit d).holdCount ≠ 0 := fun hz => by simp [hz] at hlt; omega
  have hleft : ofValue ((s.unit d).holdCount.toInt - s.ports.n.toNat) ≠ 0 := by
    intro hz
    have hval := congrArg BitVec.toInt hz
    obtain ⟨-, hhi⟩ := hrange
    rw [toInt_ofValue ⟨by omega, by omega⟩] at hval
    simp at hval
    omega
  have hunit : sampleUnit (s.services d) s.ports.nValue s.ports.xrValue (s.unit d)
      = .ok { s.unit d with holdCount := ofValue ((s.unit d).holdCount.toInt - s.ports.n.toNat) } :=
    (sampleUnit_of_countHold_ok (countHold_of_outlasting hm hh hlt)).trans (stepLevel_of_hold_running hleft)
  have hlt31 : s.ports.nValue < 2 ^ 31 := by
    have := hrange.2
    simp only [Ports.nValue]
    omega
  exact exec_getsample_of_sampleUnit hf hd hv hpos hlt31 hunit

/-- Settles O43 (40_envelope_ops R110): the expiry's ADVANCE enters the next phase, which the batch step then
steps by the whole n. -/
theorem getsampleHoldExpires : Obligations.GetsampleHoldExpires := by
  intro s d w hf hd hv hm hhold hle hlt hruns hstep
  have hh : (s.unit d).holdCount ≠ 0 := fun hz => by simp [hz] at hhold
  have hpos : 0 < s.ports.nValue := by
    simp only [Ports.nValue]
    omega
  have hcount := (countHold_of_expired (sv := s.services d) (xr := s.ports.xrValue) hm hh hle).trans
    (advance_nextPhase_eq_chained hruns)
  exact exec_getsample_of_sampleUnit hf hd hv hpos hlt ((sampleUnit_of_countHold_ok hcount).trans hstep)

/-- Settles O44 (40_envelope_ops R112, R114): with no hold, GETSAMPLE is a batch step short of the target. -/
theorem getsampleMovesLevel : Obligations.GetsampleMovesLevel := by
  intro s d c hf hd hv hpos hlt hw hh hmoves
  have hmoves' : MovesTo (s.services d) s.ports.nValue (s.unit d) c :=
    hmoves.imp_right fun ⟨hr, hlo, hhi, hc, hlt⟩ => ⟨hr, ⟨hlo, hhi⟩, hc, hlt⟩
  have hunit : sampleUnit (s.services d) s.ports.nValue s.ports.xrValue (s.unit d)
      = .ok { s.unit d with level := ofValue c } :=
    (sampleUnit_of_holdCount_eq_zero hh).trans (stepLevel_of_movesTo hw hh hmoves')
  exact exec_getsample_of_sampleUnit hf hd hv hpos hlt hunit

/-- Settles O48 (40_envelope_ops R119): a level that moves within its phase is a candidate short of the target, for
an advance leaves the phase; a non-negative increment gives the candidate's side of the old level. -/
theorem levelMonotoneInPhase : Obligations.LevelMonotoneInPhase := by
  refine ⟨fun s t d hf hgood hv hh h ht hphase hlevel => ?_,
    fun level inc n c hinc hn hl h => le_of_referenceRiseStep hinc hn hl h⟩
  obtain ⟨-, -, ⟨-, rfl⟩ | ⟨-, v, hunit, rfl⟩⟩ := getsample_completed h ht
  · exact absurd rfl hlevel
  rw [sampleUnit_of_holdCount_eq_zero hh] at hunit
  simp only [writeResult_unit, unit_setUnit_self] at hphase hlevel ⊢
  obtain rfl | ⟨hw, -, ha⟩ | ⟨c, hmoves, rfl⟩ := stepLevel_outcome hunit
  · exact absurd rfl hlevel
  · exact absurd hphase (phase_ne_of_advance hw ha)
  have hinc := (hgood hf d hv).increment_nonneg
  simp only [toInt_ofValue (inRange_of_movesTo hinc hmoves)]
  obtain ⟨hr, hstep, hlt⟩ | ⟨hr, -, rfl, hlt⟩ := hmoves
  · exact ⟨fun _ => ⟨hlt, fun hmono => hmono c hstep⟩, fun hfalse => by simp [hr] at hfalse⟩
  · have hprod : 0 ≤ (s.unit d).increment.toInt * s.ports.nValue :=
      mul_nonneg hinc (Int.natCast_nonneg _)
    exact ⟨fun htrue => by simp [hr] at htrue, fun _ => ⟨hlt, by omega⟩⟩

/-- Settles O49 (40_envelope_ops R115, 70_reset_and_hazards R244): the hold's expiry and the batch step advance at
most once each, and a STANDARD unit counts no hold. -/
theorem getsamplePhaseBound : Obligations.GetsamplePhaseBound := by
  intro s t d hf hd h ht hp
  obtain ⟨hv, -, ⟨-, rfl⟩ | ⟨-, v, hunit, rfl⟩⟩ := getsample_completed h ht
  · exact ⟨le_rfl, by simp, fun _ => by simp, hp, rfl, hv, rfl⟩
  obtain ⟨hvalid, hgate, -, -⟩ := sampleUnit_frame hunit
  obtain ⟨w, hcount, hstep⟩ := sampleUnit_ok hunit
  obtain ⟨hwlo, hwhi, hw4⟩ := phaseStep_of_countHold hp hcount
  obtain ⟨hvlo, hvhi, hv4⟩ := phaseStep_of_stepLevel hw4 hstep
  have hstandard (hm : s.mode d = .standard) : w = s.unit d := by
    have hsame := countHold_of_not_running (sv := s.services d) (n := s.ports.nValue) (xr := s.ports.xrValue)
      (u := s.unit d) fun hrun => by simp [hm] at hrun
    exact Except.ok.inj (hcount.symm.trans hsame)
  simp only [writeResult_unit, unit_setUnit_self, readResult_writeResult]
  refine ⟨by omega, by omega, fun hm => ?_, hv4, hgate, hvalid.trans hv, trivial⟩
  rw [← hstandard hm]
  exact hvhi

/-- Settles O50 (70_reset_and_hazards R237): at most ten times the largest increment of 22050 Hz in 110 samples
stays below 2^31, on top of any level that leaves such a gain. -/
theorem smallBlocksDoNotOverflow : Obligations.SmallBlocksDoNotOverflow := by
  refine ⟨fun cal q hcal hq => ?_, fun level inc n hl hinc hinc' hn hn' => ?_⟩
  · have hprod : incRef q * cal.toNat ≤ 917504 * 33554432 := Nat.mul_le_mul (incRef_le hq) hcal
    simp only [inc, calibrate, Nat.shiftRight_eq_div_pow]
    omega
  have hlo : 0 ≤ inc * n := mul_nonneg hinc hn
  have hhi : inc * n ≤ 1835008 * 110 := mul_le_mul hinc' hn' hn (by norm_num)
  obtain ⟨hglo, hghi⟩ := referenceGain_bounds hl
  have hgain := Int.mul_ediv_self_le (x := 285212672 - max level 112459776) (k := 16777216) (by norm_num)
  have hplo := mul_nonneg hglo hlo
  have hphi := mul_le_mul_of_nonneg_left hhi hglo
  refine ⟨⟨_, referenceRiseStep_of_in ?_ ?_⟩, chk32_of_inRange ⟨by omega, by omega⟩⟩
  · rw [mul_assoc]
    exact ⟨by omega, by omega⟩
  · rw [mul_assoc]
    exact ⟨by omega, by omega⟩

end Sys2Proof.Machine

/-! SUPPORT. Driving a copy (40_envelope_ops R129): what GETSAMPLE, KEYDOWN and UPDATE make of a unit depends on the
unit and on what it reads, not on its number; so a unit and its copy go through the same states. -/

namespace Sys2Proof.Machine

section
variable {c : Drive} {s x y : State} {a b d : UnitNo} {r : FaultReason} {ans : EnvUnit × Option Word}

/-! ### What a driving command makes of a unit -/

/-- The unit that a driving command leaves of the valid unit `u`, with the RESULT value it writes, if any. -/
def Drive.answer (sv : Services) (u : EnvUnit) : Drive → Except FaultReason (EnvUnit × Option Word)
  | .getsample p =>
    if 2 ^ 31 ≤ p.nValue then .error .operandRange
    else if p.nValue = 0 then .ok (u, some u.level)
    else (sampleUnit sv p.nValue p.xrValue u).map fun v => (v, some v.level)
  | .keydown _ g =>
    if g = u.gateDown then .ok (u, none)
    else (advance sv (gatePhase g) 0 { u with gateDown := g }).map fun v => (v, none)
  | .update p =>
    if u.gateDown then
      (advance sv 2 0 { u with outputLevel := p.ol, rateScaling := p.rs }).map fun v => (v, none)
    else .ok (u, none)

/-- The state with such an answer written for the unit `d`. -/
def State.report (s : State) (d : UnitNo) (ans : EnvUnit × Option Word) : State :=
  match ans.2 with
  | none => s.setUnit d ans.1
  | some v => (s.setUnit d ans.1).writeResult v

/-- A driving command writes its answer, on whichever unit it works. -/
theorem exec_drive (hp : s.ports = c.ports) : exec (c.instr d) s
    = s.attempt (c.instr d) (s.withValid d fun u => (c.answer (s.services d) u).map (s.report d)) := by
  have hbody {f g : EnvUnit → Except FaultReason State} (h : f (s.unit d) = g (s.unit d)) :
      s.attempt (c.instr d) (s.withValid d f) = s.attempt (c.instr d) (s.withValid d g) := by
    simp only [State.withValid, h]
  cases c with
  | getsample p =>
    obtain rfl : p = s.ports := hp.symm
    refine hbody ?_
    simp only [Drive.answer]
    split
    · rfl
    split
    · simp [Except.map, State.report]
    · cases sampleUnit (s.services d) s.ports.nValue s.ports.xrValue (s.unit d) <;> rfl
  | keydown p g =>
    refine hbody ?_
    simp only [Drive.answer]
    split
    · simp [Except.map, State.report]
    · cases advance (s.services d) (gatePhase g) 0 { s.unit d with gateDown := g } <;> rfl
  | update p =>
    obtain rfl : p = s.ports := hp.symm
    refine hbody ?_
    simp only [Drive.answer]
    split
    · cases advance (s.services d) 2 0
        { s.unit d with outputLevel := s.ports.ol, rateScaling := s.ports.rs } <;> rfl
    · simp [Except.map, State.report]

theorem units_driveInstr (c : Drive) (d : UnitNo) : (c.instr d).units = [d] := by cases c <;> rfl

/-- The answer a driving command gives for a unit, the test of `valid` included. -/
def Drive.checked (c : Drive) (sv : Services) (u : EnvUnit) : Except FaultReason (EnvUnit × Option Word) :=
  if u.valid then c.answer sv u else .error .uninit

theorem exec_drive_of_error (hp : s.ports = c.ports) (hf : s.fault = .none) (hd : s.Exists d)
    (h : c.checked (s.services d) (s.unit d) = .error r) :
    exec (c.instr d) s = .next (s.takeFault (c.instr d).units r) := by
  rw [exec_drive hp]
  refine attempt_error hf (wellFormed_of_exists (units_driveInstr c d) hd) ?_
  unfold Drive.checked at h
  split at h
  · rw [withValid_valid ‹_›, h]; rfl
  · rename_i hinvalid
    cases h
    exact withValid_invalid (by simpa using hinvalid)

theorem exec_drive_of_ok (hp : s.ports = c.ports) (hf : s.fault = .none) (hd : s.Exists d)
    (h : c.checked (s.services d) (s.unit d) = .ok ans) : exec (c.instr d) s = .next (s.report d ans) := by
  rw [exec_drive hp]
  refine attempt_ok hf (wellFormed_of_exists (units_driveInstr c d) hd) ?_
  unfold Drive.checked at h
  split at h
  · rw [withValid_valid ‹_›, h]; rfl
  · cases h

@[simp] theorem report_unit : (s.report d ans).unit d = ans.1 := by
  unfold State.report
  split <;> simp

@[simp] theorem report_cfg : (s.report d ans).cfg = s.cfg := by
  unfold State.report
  split <;> rfl

@[simp] theorem report_cal : (s.report d ans).cal = s.cal := by
  unfold State.report
  split <;> rfl

@[simp] theorem report_fault : (s.report d ans).fault = s.fault := by
  unfold State.report
  split <;> rfl

theorem report_readResult : (s.report d ans).readResult = ans.2.elim s.readResult .ok := by
  obtain ⟨u, _ | v⟩ := ans <;> rfl

/-! ### A unit and its copy -/

/-- What the unit `b` of the running state `y` shows is what the unit `a` of `x` shows. -/
structure ShowsSame (a b : UnitNo) (x y : State) : Prop where
  cfg : y.cfg = x.cfg
  cal : y.cal = x.cal
  unit : y.unit b = x.unit a
  result : y.readResult = x.readResult
  mode : x.mode b = x.mode a
  source : x.Exists a
  copy : x.Exists b

/-- `b` of `y` mirrors `a` of `x`: with the same FAULT, and while there is none, showing the same. -/
structure Mirrors (a b : UnitNo) (x y : State) : Prop where
  fault : y.fault = x.fault
  same : x.fault = .none → ShowsSame a b x y

theorem ShowsSame.latch (h : ShowsSame a b x y) (p : Ports) :
    ShowsSame a b { x with ports := p } { y with ports := p } :=
  ⟨h.cfg, h.cal, h.unit, h.result, h.mode, h.source, h.copy⟩

theorem ShowsSame.services (h : ShowsSame a b x y) (hp : y.ports = x.ports) : y.services b = x.services a := by
  have hmode : y.mode b = x.mode a := by
    rw [← h.mode]
    simp [State.mode, h.cfg]
  simp [State.services, h.cfg, h.cal, hmode, hp]

theorem ShowsSame.report (h : ShowsSame a b x y) (ans : EnvUnit × Option Word) :
    ShowsSame a b (x.report a ans) (y.report b ans) where
  cfg := by simp [h.cfg]
  cal := by simp [h.cal]
  unit := by simp
  result := by rw [report_readResult, report_readResult, h.result]
  mode := by simpa [State.mode] using h.mode
  source := by simpa [State.Exists] using h.source
  copy := by simpa [State.Exists] using h.copy

/-- A driving command keeps the mirror: it finds the same unit, `CAL`, mode and ports, so it gives the same answer
or raises the same fault. -/
theorem Mirrors.exec (h : Mirrors a b x y) (c : Drive) :
    ∃ x' y', exec (c.instr a) { x with ports := c.ports } = .next x'
      ∧ exec (c.instr b) { y with ports := c.ports } = .next y' ∧ Mirrors a b x' y' := by
  by_cases hx : x.fault = .none
  · have hy : y.fault = .none := h.fault.trans hx
    have hsame := (h.same hx).latch c.ports
    have hdy : y.Exists b := by
      simpa [State.Exists, (h.same hx).cfg] using (h.same hx).copy
    have hans : c.checked (({ y with ports := c.ports } : State).services b) (y.unit b)
        = c.checked (({ x with ports := c.ports } : State).services a) (x.unit a) := by
      rw [hsame.services rfl]
      exact congrArg _ hsame.unit
    cases hc : c.checked (({ x with ports := c.ports } : State).services a) (x.unit a) with
    | error r =>
      refine ⟨_, _, exec_drive_of_error rfl hx hsame.source hc,
        exec_drive_of_error rfl hy hdy (hans.trans hc), ?_, fun hnone => ?_⟩
      · simp [hx, hy]
      · simp [hx] at hnone
    | ok ans =>
      exact ⟨_, _, exec_drive_of_ok rfl hx hsame.source hc, exec_drive_of_ok rfl hy hdy (hans.trans hc),
        by simp [hx, hy], fun _ => hsame.report ans⟩
  · have hy : y.fault ≠ .none := fun hy => hx (h.fault.symm.trans hy)
    exact ⟨_, _, exec_stopped _ hx, exec_stopped _ hy, h.fault, fun hnone => absurd hnone hx⟩

theorem Mirrors.drive (h : Mirrors a b x y) (cs : List Drive) :
    ∃ x' y', drive a cs x = .next x' ∧ drive b cs y = .next y' ∧ Mirrors a b x' y' := by
  induction cs generalizing x y with
  | nil => exact ⟨x, y, rfl, rfl, h⟩
  | cons c cs ih =>
    obtain ⟨x₁, y₁, hx₁, hy₁, h₁⟩ := h.exec c
    obtain ⟨x', y', hx', hy', h'⟩ := ih h₁
    refine ⟨x', y', ?_, ?_, h'⟩
    · rw [Machine.drive, hx₁, andThen_next, hx']
    · rw [Machine.drive, hy₁, andThen_next, hy']

/-- A completed TRANSFER makes a mirror of its source. -/
theorem mirrors_of_transfer {t : State} (h : exec (.transfer b a) s = .next t) (ht : t.fault = .none) :
    Mirrors a b s t := by
  have hf := running_of_completed h ht
  have hsource : s.Exists a := exists_of_completed h ht (by simp [Instr.units])
  have hcopy : s.Exists b := exists_of_completed h ht (by simp [Instr.units])
  obtain ⟨-, hmode, rfl⟩ := transfer_completed h ht
  exact ⟨rfl, fun _ => ⟨rfl, rfl, unit_setUnit_self .., rfl, hmode, hsource, hcopy⟩⟩

end

/-- Settles O55 (40_envelope_ops R129): TRANSFER makes a mirror, and every driving command keeps it. -/
theorem transferKeepsTrajectory : Obligations.TransferKeepsTrajectory := by
  intro s t a b cs hf h ht
  obtain ⟨x, y, hx, hy, hmirror⟩ := (mirrors_of_transfer h ht).drive cs
  exact ⟨x, y, hx, hy, hmirror.fault, fun hnone =>
    ⟨(hmirror.same hnone).unit, (hmirror.same hnone).cal, (hmirror.same hnone).result⟩⟩

end Sys2Proof.Machine

/-! SUPPORT. How a step reaches the block (30_encoding R87, 20_memory R71): one command, two that overlap, a
forbidden pair, a run of a stopped block; and the host's read of FAULT. -/

namespace Sys2Proof.Machine

/-! ### One command -/

section
variable {s : State} {c : Command} {i : Instr} {x : RefusalReason} {d : UnitNo}

theorem present_of_decode_ok (hf : s.fault = .none) (h : decode s.cfg.numInstances c.word = .ok i) :
    present c s = exec i { s with ports := c.ports } := by
  simp [present, hf, h]

theorem present_of_decode_error (hf : s.fault = .none) (h : decode s.cfg.numInstances c.word = .error x) :
    present c s = .next { s with fault := .refused x } := by
  simp [present, hf, h, State.takeRefusal]

/-- `exec` refuses a unit number that does not exist (log 11). -/
theorem exec_of_badUnit (hf : s.fault = .none) (hd : d ∈ i.units) (hn : s.cfg.numInstances ≤ d.toNat) :
    exec i s = .next { s with fault := .refused .badUnit } := by
  have hwf : i.wellFormed s.cfg.numInstances = false := by
    rw [← Bool.not_eq_true, wellFormed_iff]
    exact fun h => absurd (h d hd) (Nat.not_lt.2 hn)
  obtain ⟨body, hbody⟩ := exec_is_attempt i s
  rw [hbody, attempt_badUnit hf hwf, State.takeRefusal, hf, latch_none]

end

/-! ### A stopped block -/

/-- A stopped block takes every event but a reset and changes nothing else. -/
theorem step_of_stopped {s : State} (hf : s.fault ≠ .none) (hreset : HostEvent.reset ∉ s.inbox) :
    step s = .next { s with inbox := s.inbox.drop 1 } := by
  cases hin : s.inbox with
  | nil =>
    rw [step_of_inbox_eq_nil hin, List.drop_nil, ← hin]
  | cons e rest =>
    rw [step_of_inbox_eq_cons hin]
    cases e with
    | command c => exact present_stopped c hf
    | overlap cs => exact presentOverlap_stopped cs hf
    | reset => simp [hin] at hreset

/-! ### Overlapping commands -/

section
variable {s : State} {a b : Command} {cs : List Command} {i j : Instr} {n : Nat}

theorem readsCal_of_advances
    (h : ∃ d, j = .init d ∨ (∃ g, j = .keydown d g) ∨ j = .getsample d ∨ j = .update d) : readsCal j = true := by
  obtain ⟨d, rfl | ⟨g, rfl⟩ | rfl | rfl⟩ := h <;> rfl

theorem advances_of_readsCal (hj : ∀ d k xr, j ≠ .advance d k xr) (h : readsCal j = true) :
    ∃ d, j = .init d ∨ (∃ g, j = .keydown d g) ∨ j = .getsample d ∨ j = .update d := by
  cases j with
  | init d => exact ⟨d, .inl rfl⟩
  | keydown d g => exact ⟨d, .inr (.inl ⟨g, rfl⟩)⟩
  | getsample d => exact ⟨d, .inr (.inr (.inl rfl))⟩
  | update d => exact ⟨d, .inr (.inr (.inr rfl))⟩
  | advance d k xr => exact absurd rfl (hj d k xr)
  | getposition d => cases h
  | transfer d e => cases h
  | setSampleRate => cases h
  | levelScale => cases h

theorem forbiddenPair_iff : forbiddenPair i j = true ↔
    (i = .setSampleRate ∧ readsCal j = true) ∨ (j = .setSampleRate ∧ readsCal i = true)
      ∨ ∃ d, d ∈ i.units ∧ d ∈ j.units := by
  simp [forbiddenPair, or_assoc]

/-- The model's test finds every forbidden pair of 20_memory R71. -/
theorem forbiddenPair_of_mustNotOverlap (h : MustNotOverlap i j) : forbiddenPair i j = true :=
  forbiddenPair_iff.2 <| h.imp (fun ⟨hi, hj⟩ => ⟨hi, readsCal_of_advances hj⟩)
    (Or.imp_left fun ⟨hj, hi⟩ => ⟨hj, readsCal_of_advances hi⟩)

/-- And, among commands with a word, no other pair. -/
theorem mustNotOverlap_of_forbiddenPair (hi : ∀ d k xr, i ≠ .advance d k xr)
    (hj : ∀ d k xr, j ≠ .advance d k xr) (h : forbiddenPair i j = true) : MustNotOverlap i j :=
  (forbiddenPair_iff.1 h).imp (fun ⟨hi', hread⟩ => ⟨hi', advances_of_readsCal hj hread⟩)
    (Or.imp_left fun ⟨hj', hread⟩ => ⟨hj', advances_of_readsCal hi hread⟩)

/-- Two forbidden commands in their place among the overlapping ones are found. -/
theorem hasForbiddenPair_of_sublist (hsub : [a, b].Sublist cs) (hi : decode n a.word = .ok i)
    (hj : decode n b.word = .ok j) (h : forbiddenPair i j = true) : hasForbiddenPair n cs = true := by
  have hdecoded : [i, j].Sublist (decodedOf n cs) := by
    simpa [decodedOf, hi, hj, Except.toOption] using hsub.filterMap fun c => (decode n c.word).toOption
  have hnot : ¬ (decodedOf n cs).Pairwise fun i j => forbiddenPair i j = false := fun hall => by
    simpa [h] using hall.sublist hdecoded
  simpa [hasForbiddenPair] using hnot

theorem hasForbiddenPair_pair_eq_false
    (h : ∀ i j, decode n a.word = .ok i → decode n b.word = .ok j → ¬ MustNotOverlap i j) :
    hasForbiddenPair n [a, b] = false := by
  have hall : (decodedOf n [a, b]).Pairwise fun i j => forbiddenPair i j = false := by
    cases ha : decode n a.word with
    | error x => cases hb : decode n b.word <;> simp [decodedOf, ha, hb, Except.toOption]
    | ok i =>
      cases hb : decode n b.word with
      | error x => simp [decodedOf, ha, hb, Except.toOption]
      | ok j =>
        have hpair : forbiddenPair i j = false := by
          rw [← Bool.not_eq_true]
          exact fun hpair => h i j ha hb
            (mustNotOverlap_of_forbiddenPair (ne_advance_of_decode ha) (ne_advance_of_decode hb) hpair)
        simpa [decodedOf, ha, hb, Except.toOption] using hpair
  simpa [hasForbiddenPair] using hall

theorem presentOverlap_of_forbidden (hf : s.fault = .none) (h : hasForbiddenPair s.cfg.numInstances cs = true) :
    presentOverlap cs s = .next s.takeRace := by
  simp [presentOverlap, hf, h]

theorem presentOverlap_of_allowed (hf : s.fault = .none) (h : hasForbiddenPair s.cfg.numInstances cs = false) :
    presentOverlap cs s = runInSomeOrder cs.length cs s := by
  simp [presentOverlap, hf, h]

/-- The last of the overlapping commands takes effect. -/
theorem runInSomeOrder_one (c : Command) (s : State) :
    runInSomeOrder 1 [c] s = present c { s with freeCount := s.freeCount + 1 } := by
  obtain ⟨t, ht⟩ := present_next c { s with freeCount := s.freeCount + 1 }
  simp [runInSomeOrder, Nat.mod_one, ht]

/-- Two overlapping commands take effect in one of the two orders. -/
theorem runInSomeOrder_two (a b : Command) (s : State) :
    ∃ x y, ((x = a ∧ y = b) ∨ (x = b ∧ y = a)) ∧ runInSomeOrder 2 [a, b] s
      = andThen (present x { s with freeCount := s.freeCount + 1 })
          fun t => present y { t with freeCount := t.freeCount + 1 } := by
  have hindex : Config.freeOrder s.freeCount % 2 = 0 ∨ Config.freeOrder s.freeCount % 2 = 1 := by omega
  obtain h0 | h1 := hindex
  · refine ⟨a, b, .inl ⟨rfl, rfl⟩, ?_⟩
    rw [runInSomeOrder]
    simp only [List.length_cons, List.length_nil, Nat.zero_add, Nat.reduceAdd, h0]
    exact congrArg (andThen (present a { s with freeCount := s.freeCount + 1 })) (funext (runInSomeOrder_one b))
  · refine ⟨b, a, .inr ⟨rfl, rfl⟩, ?_⟩
    rw [runInSomeOrder]
    simp only [List.length_cons, List.length_nil, Nat.zero_add, Nat.reduceAdd, h1]
    exact congrArg (andThen (present b { s with freeCount := s.freeCount + 1 })) (funext (runInSomeOrder_one a))

end

/-- Settles O8 (00_scope R6, R24, 30_encoding R87): the step takes the event and presents its command. -/
theorem stepRunsDecodedCommand : Obligations.StepRunsDecodedCommand :=
  fun _ _ _ _ hf hin h => (step_of_inbox_eq_cons hin).trans (present_of_decode_ok hf h)

/-- Settles O9 (60_exceptions R206 a, R207): a refusal is taken before the ports are latched. -/
theorem refusalsWriteFaultAlone : Obligations.RefusalsWriteFaultAlone :=
  ⟨fun _ _ _ _ hf hin h => (step_of_inbox_eq_cons hin).trans (present_of_decode_error hf h),
    fun _ _ _ => exec_of_badUnit⟩

/-- Settles O11 (60_exceptions R208), by induction on the number of steps. -/
theorem stoppedRunKeepsState : Obligations.StoppedRunKeepsState := by
  intro k
  induction k with
  | zero => intro s _ _; rfl
  | succ k ih =>
    intro s hf hreset
    rw [runSteps, step_of_stopped hf hreset, andThen_next,
      ih { s with inbox := s.inbox.drop 1 } hf fun hmem => hreset (List.mem_of_mem_drop hmem), List.drop_drop,
      Nat.add_comm]

/-- Settles O12 (60_exceptions R218): with no event there is nothing to handle. -/
theorem idleBlockKeepsState : Obligations.IdleBlockKeepsState := fun _ => step_of_inbox_eq_nil

/-- Settles O14 (20_memory R71, 60_exceptions R205): the pair is found among the decoded commands, and F_RACE is
taken before any of them runs. -/
theorem forbiddenOverlapRaces : Obligations.ForbiddenOverlapRaces := by
  intro s cs rest a b i j hf hin hsub hi hj hmust
  have hpair := hasForbiddenPair_of_sublist hsub hi hj (forbiddenPair_of_mustNotOverlap hmust)
  refine ⟨_, (step_of_inbox_eq_cons hin).trans (presentOverlap_of_forbidden hf hpair), ?_, takeRace_cfg _,
    takeRace_inbox _⟩
  simp [hf]

/-- Settles O15 (20_memory R69, R71): with no forbidden pair the free order picks the first of the two commands, and
the other follows. -/
theorem allowedOverlapIsSerial : Obligations.AllowedOverlapIsSerial := by
  intro s a b rest hf hin hallowed
  have hstep : step s = runInSomeOrder 2 [a, b] { s with inbox := rest } :=
    (step_of_inbox_eq_cons hin).trans
      (presentOverlap_of_allowed hf (hasForbiddenPair_pair_eq_false hallowed))
  rw [hstep]
  exact runInSomeOrder_two a b { s with inbox := rest }

/-- Settles O25 (00_scope R22, R24): the rules of Laws/State.lean for the two writes. -/
theorem namedWritesFrame : Obligations.NamedWritesFrame :=
  fun s d u v => ⟨unit_setUnit_self s d u, fun e => unit_setUnit_ne s d e u, rfl, rfl,
    readResult_writeResult s v⟩

/-- Settles O60 (60_exceptions R201): one value a reason. -/
theorem faultRegisterValues : Obligations.FaultRegisterValues := by
  intro s
  unfold State.readFault
  rcases s.fault with _ | (_ | _ | _ | _ | _ | _ | _) | (_ | _ | _) <;> simp [Status.code]

end Sys2Proof.Machine

/-! SUPPORT. The PARAMS port byte by byte (30_encoding R85), and the assembler's lines (30_encoding R91, R92): a line
that takes a parameter set reads the names bound so far through that set alone. -/

namespace Sys2Proof.Machine

/-! ### The bytes of PARAMS -/

theorem rateParam_eq_div (p : ParamWord) (k : Nat) : rateParam p k = p.toNat / 2 ^ (8 * k) % 256 := by
  simp [rateParam, Nat.shiftRight_eq_div_pow]

theorem levelParam_eq_div (p : ParamWord) (k : Nat) : levelParam p k = p.toNat / 2 ^ (8 * k + 32) % 256 := by
  simp [levelParam, Nat.shiftRight_eq_div_pow]

section
variable (r l : Vector (BitVec 8) 4)

theorem toNat_append_byte {v : Nat} (hi : BitVec v) (lo : BitVec 8) :
    (hi ++ lo).toNat = hi.toNat * 256 + lo.toNat := by
  rw [BitVec.toNat_append, ← Nat.shiftLeft_add_eq_or_of_lt lo.isLt, Nat.shiftLeft_eq]

/-- A packed port is its eight bytes in base 256, the rates below the levels. -/
theorem toNat_packParams : (packParams r l).toNat
    = ((((((l[3].toNat * 256 + l[2].toNat) * 256 + l[1].toNat) * 256 + l[0].toNat) * 256 + r[3].toNat) * 256
        + r[2].toNat) * 256 + r[1].toNat) * 256 + r[0].toNat := by
  simp only [← toNat_append_byte]
  rfl

theorem rateParam_packParams (k : Fin 4) : rateParam (packParams r l) k = r[k].toNat := by
  have h0 := r[0].isLt
  have h1 := r[1].isLt
  have h2 := r[2].isLt
  have h3 := r[3].isLt
  rw [rateParam_eq_div, toNat_packParams]
  fin_cases k <;> simp only [Fin.getElem_fin] <;> omega

theorem levelParam_packParams (k : Fin 4) : levelParam (packParams r l) k = l[k].toNat := by
  have h0 := r[0].isLt
  have h1 := r[1].isLt
  have h2 := r[2].isLt
  have h3 := r[3].isLt
  have h4 := l[0].isLt
  have h5 := l[1].isLt
  have h6 := l[2].isLt
  have h7 := l[3].isLt
  rw [levelParam_eq_div, toNat_packParams]
  fin_cases k <;> simp only [Fin.getElem_fin] <;> omega

end

/-! ### The lines of the assembler -/

section
variable {i : Instr} {env : List (String × ParamSet)} {line : ParamRef → Asm}

/-- In a block of 256 units every unit number exists. -/
theorem wellFormed_256 (i : Instr) : i.wellFormed 256 = true := wellFormed_iff.2 fun d _ => d.isLt

/-- A line that assembles to an instruction with a word stands for that instruction on its ports. -/
theorem stands_of_assemble {a : Asm} {o : Ports} (h : a.assemble env = Command.ofInstr i o)
    (hi : ∀ d k xr, i ≠ .advance d k xr) :
    ∃ w, a.assemble env = some ⟨w, o⟩ ∧ decode 256 w = .ok i := by
  cases hw : encode i with
  | none =>
    obtain ⟨d, k, xr, rfl⟩ := encode_eq_none_iff.1 hw
    exact absurd rfl (hi d k xr)
  | some w => exact ⟨w, by simp [h, Command.ofInstr, hw], encodedCommandsDecode 256 i w (wellFormed_256 i) hw⟩

/-- What the line assembles to depends on the names bound only through the set that its reference stands for. -/
def ReadsParams (line : ParamRef → Asm) : Prop :=
  ∃ f : ParamSet → Option Command, ∀ env r, (line r).assemble env = (r.resolve env).bind f

/-- The lines with a parameter set, pseudo-instructions among them (30_encoding R91, R92). -/
def paramLines (d : UnitNo) (ol rs n xr : Word) (g : Bool) : List (ParamRef → Asm) :=
  [fun r => .init d r ol rs, fun r => .keydown d r g, fun r => .getsample d r n xr, fun r => .update d r ol rs,
    .noteon d, .noteoff d, fun r => .tick d r n]

theorem readsParams_of_mem_paramLines {d : UnitNo} {ol rs n xr : Word} {g : Bool}
    (h : line ∈ paramLines d ol rs n xr g) : ReadsParams line := by
  simp only [paramLines, List.mem_cons, List.not_mem_nil, or_false] at h
  obtain rfl | rfl | rfl | rfl | rfl | rfl | rfl := h
  all_goals exact ⟨_, fun _ _ => rfl⟩

theorem assembleProgram_op (a : Asm) : assembleProgram env [.op a] = (a.assemble env).map ([·]) := by
  cases h : a.assemble env <;> simp [assembleProgram, h]

theorem assembleProgram_params (x : String) (p : ParamSet) (rest : List AsmLine) :
    assembleProgram env (.params x p :: rest) = assembleProgram ((x, p) :: env) rest := rfl

/-- A name stands for the set it is bound to. -/
theorem assemble_name_of_lookup (hline : ReadsParams line) {y : String} {p : ParamSet}
    (h : env.lookup y = some p) (env' : List (String × ParamSet)) :
    (line (.name y)).assemble env = (line (.literal p)).assemble env' := by
  obtain ⟨f, hf⟩ := hline
  rw [hf, hf, ParamRef.resolve, ParamRef.resolve, h]

theorem assemble_name_of_unbound (hline : ReadsParams line) {y : String} (h : env.lookup y = none) :
    (line (.name y)).assemble env = none := by
  obtain ⟨f, hf⟩ := hline
  rw [hf, ParamRef.resolve, h, Option.bind_none]

end

/-- Settles O6 (30_encoding R85): a byte is a digit of the port value in base 256, and packing writes the digits. -/
theorem paramBytes : Obligations.ParamBytes :=
  ⟨fun p k _ => ⟨rateParam_eq_div p k, levelParam_eq_div p k⟩,
    fun r l k => ⟨rateParam_packParams r l k, levelParam_packParams r l k⟩⟩

/-- Settles O7 (30_encoding R91, R92): each line is the word of its command; a pseudo-instruction is its expansion;
a name is looked up, the latest binding first. -/
theorem assembledLinesDecode : Obligations.AssembledLinesDecode := by
  intro env d e p q ol rs n xr rate x g
  refine ⟨stands_of_assemble rfl (by simp), stands_of_assemble rfl (by simp), stands_of_assemble rfl (by simp),
    stands_of_assemble rfl (by simp), stands_of_assemble rfl (by simp), stands_of_assemble rfl (by simp),
    stands_of_assemble rfl (by simp), stands_of_assemble rfl (by simp), rfl, rfl, rfl, rfl, rfl,
    fun line hline y z hyz => ?_, fun a b c c' ha hb => by simp [assembleProgram, ha, hb]⟩
  have hreads : ReadsParams line := readsParams_of_mem_paramLines hline
  have hpast : List.lookup y ((z, q) :: (y, p) :: env) = some p := by
    simp [List.lookup, beq_eq_false_iff_ne.2 hyz]
  have hlatest : List.lookup y ((y, p) :: (y, q) :: env) = some p := by simp [List.lookup]
  refine ⟨?_, ?_, ?_⟩
  · rw [assembleProgram_params, assembleProgram_params, assembleProgram_op, assembleProgram_op,
      assemble_name_of_lookup hreads hpast env]
  · rw [assembleProgram_params, assembleProgram_params, assembleProgram_op, assembleProgram_op,
      assemble_name_of_lookup hreads hlatest env]
  · rw [assembleProgram_op, assemble_name_of_unbound hreads rfl, Option.map_none]

end Sys2Proof.Machine

/-! SUPPORT. The rate-to-slope engine's numbers (41_advance R144 to R148), SET_SAMPLE_RATE (43_calibration) and
LEVEL_SCALE (42_level_scaling). -/

namespace Sys2Proof.Machine

section
variable {q : Nat}

theorem incRef_eq (q : Nat) : incRef q = (4 + q % 4) * 2 ^ (2 + q / 4) := Nat.shiftLeft_eq _ _

theorem sixteen_le_incRef (q : Nat) : 16 ≤ incRef q := by
  rw [incRef_eq, pow_add]
  have hpow : 1 ≤ 2 ^ (q / 4) := Nat.one_le_two_pow
  calc 16 = 4 * (2 ^ 2 * 1) := rfl
    _ ≤ (4 + q % 4) * (2 ^ 2 * 2 ^ (q / 4)) :=
      Nat.mul_le_mul (Nat.le_add_right _ _) (Nat.mul_le_mul_left _ hpow)

/-- A calibration of 2^24, the reset value, leaves the reference increment (43_calibration). -/
theorem inc_reference (q : Nat) : inc 16777216#32 q = incRef q := by
  simp [inc, calibrate, Nat.shiftRight_eq_div_pow]

/-- Every reference increment is even, so half the calibration halves it exactly. -/
theorem two_mul_inc_half (q : Nat) : 2 * inc 8388608#32 q = incRef q := by
  have heven : incRef q = 2 * ((4 + q % 4) * 2 ^ (1 + q / 4)) := by
    rw [incRef_eq, show 2 + q / 4 = 1 + (1 + q / 4) by omega, pow_add 2 1]
    ring
  simp only [inc, calibrate, Nat.shiftRight_eq_div_pow, heven, BitVec.toNat_ofNat]
  omega

theorem rateCode_reference (r rs xr : Int) : rateCode .reference r rs xr = r * 41 / 64 + rs + xr := by
  simp [rateCode, referenceRateCode, Int.shiftRight_eq_div_pow]

/-! ### SET_SAMPLE_RATE -/

theorem calOf_floor (rate : Nat) : calOf .floor rate = 44100 * 2 ^ 24 / rate := by
  simp [calOf, floorCal, Nat.shiftLeft_eq]

/-- The exact floor needs more than 32 bits for the rates 1 to 172 (43_calibration R181). -/
theorem calOf_floor_out_iff {rate : Nat} (h : rate ≠ 0) : 4294967296 ≤ calOf .floor rate ↔ rate ≤ 172 := by
  rw [calOf_floor, Nat.le_div_iff_mul_le (Nat.pos_of_ne_zero h)]
  omega

/-! ### LEVEL_SCALE -/

variable {cfg : Config} {x y : Nat}

theorem levelLut_lt_of_legal (h : cfg.legal = true) (hxy : x < y) (hy : y < 20) :
    cfg.levelLut[x] < cfg.levelLut[y] := by
  simp only [Config.legal, Bool.and_eq_true, decide_eq_true_eq] at h
  obtain ⟨⟨⟨-, hsorted⟩, -⟩, -⟩ := h
  have hlen : cfg.levelLut.toList.length = 20 := by simp
  have hlt := List.pairwise_iff_getElem.1 hsorted x y (by omega) (by omega) hxy
  rwa [Vector.getElem_toList, Vector.getElem_toList] at hlt

/-- The table of a legal configuration ends at 46. -/
theorem levelLut_le_of_legal (h : cfg.legal = true) (hx : x < 20) : cfg.levelLut[x] ≤ 46 := by
  obtain ⟨-, hlast⟩ := levelLut_ends_of_legal h
  by_cases h19 : x = 19
  · subst h19
    exact hlast.le
  · exact hlast ▸ (levelLut_lt_of_legal h (show x < 19 by omega) (by decide)).le

theorem levelScale_lt_of_legal (h : cfg.legal = true) (hxy : x < y) : levelScale cfg x < levelScale cfg y := by
  by_cases hy : y < 20
  · rw [levelScale_of_lt hy, levelScale_of_lt (hxy.trans hy)]
    exact levelLut_lt_of_legal h hxy hy
  rw [levelScale_of_ge (Nat.not_lt.1 hy)]
  by_cases hx : x < 20
  · rw [levelScale_of_lt hx]
    have := levelLut_le_of_legal h hx
    omega
  · rw [levelScale_of_ge (Nat.not_lt.1 hx)]
    omega

theorem levelScale_le_of_legal (h : cfg.legal = true) : levelScale cfg x ≤ max 46 (28 + x) := by
  by_cases hx : x < 20
  · rw [levelScale_of_lt hx]
    exact (levelLut_le_of_legal h hx).trans (le_max_left _ _)
  · rw [levelScale_of_ge (Nat.not_lt.1 hx)]
    exact le_max_right _ _

end

/-- Settles O34 (41_advance R146, R148): the shifts are a product and a division by 2^24, and every reference
increment is even. -/
theorem incrementOfRateCode : Obligations.IncrementOfRateCode :=
  fun q hq => ⟨incRef_eq q, sixteen_le_incRef q, incRef_le hq,
    fun cal => ⟨by rw [inc_eq_mul_div, incRef_eq], inc_lt hq⟩, inc_reference q, two_mul_inc_half q⟩

/-- Settles O35 (41_advance R144, R145, 44_accurate_timing R192): below 0, up to 63 and above are the three branches
of the clamp; at 99 the default formula gives 63. -/
theorem rateCodeClamped : Obligations.RateCodeClamped := by
  refine ⟨fun q => ⟨clampRate_of_neg, fun hlo hhi => ?_, fun hhi => ?_⟩, rateCode_reference, fun r hlo hhi => ?_,
    fun _ _ _ => rfl⟩
  · rw [clampRate_of_nonneg hlo, min_eq_left hhi]
  · rw [clampRate_of_nonneg (by omega), min_eq_right hhi.le]
    rfl
  · rw [rateCode_reference]
    omega

/-- Settles O56 (43_calibration R181, R182): the value is in range, so it is written. -/
theorem setSampleRateWritesCal : Obligations.SetSampleRateWritesCal := by
  refine ⟨fun s hf hrule hrate => ?_, fun _ => calOf_floor_out_iff,
    fun s k hf hrule hrate hlt => ?_, fun rule => ?_⟩
  · have hz : s.ports.rateValue ≠ 0 := by
      simp only [Ports.rateValue]
      omega
    have hlt : calOf .floor s.ports.rateValue < 2 ^ 32 :=
      Nat.lt_of_not_le fun hle => absurd ((calOf_floor_out_iff hz).1 hle) (Nat.not_le.2 hrate)
    rw [exec_setSampleRate_of_lt hf hz (hrule ▸ hlt), hrule, calOf_floor]
    rfl
  · rw [exec_setSampleRate_of_lt hf hrate (hrule ▸ hlt), hrule]
    rfl
  · cases rule <;> exact ⟨rfl, rfl⟩

/-- Settles O57 (42_level_scaling R170, R171): the operand test passes, and 20 divides the table from the formula. -/
theorem levelScaleWritesResult : Obligations.LevelScaleWritesResult := by
  intro s hf hlin
  refine ⟨fun hlt => ?_, fun hge => ?_⟩
  · rw [exec_levelScale_of_le hf hlin, Ports.linValue, levelScale_of_lt hlt]
  · have hsum : BitVec.ofNat 32 (28 + s.ports.lin.toNat) = 28#32 + s.ports.lin := by
      rw [BitVec.ofNat_add, BitVec.ofNat_toNat, BitVec.setWidth_eq]
    rw [exec_levelScale_of_le hf hlin, Ports.linValue, levelScale_of_ge hge, hsum]

/-- Settles O59 (42_level_scaling R174): the table is increasing up to 46, the formula goes on from 48. -/
theorem levelScaleIncreasing : Obligations.LevelScaleIncreasing := by
  intro cfg hlegal
  refine ⟨fun x y hxy _ => levelScale_lt_of_legal hlegal hxy, fun x hx => ?_, fun x hx => ?_⟩
  · have := levelScale_le_of_legal (x := x) hlegal
    omega
  · have hle := levelScale_le_of_legal (x := x) hlegal
    simp only [Nat.shiftRight_eq_div_pow, Nat.shiftLeft_eq]
    omega

end Sys2Proof.Machine
